-- ==== Sys2Proof/Word.lean ====
section
/-! DEFINITION. The word types of the codec block (spec/00_scope.md R8, R15): plain bit vectors. -/

namespace Sys2Proof

/-- One byte of a host buffer. -/
abbrev Byte := BitVec 8

/-- A 16-bit half slot: a binary16 pattern (R15). -/
abbrev Half := BitVec 16

/-- A 32-bit lane: a binary32 pattern, an RGB9E5 word or an RGBE8 texel (R15). -/
abbrev Lane := BitVec 32

/-- The 128-bit operand and result buses (R8). -/
abbrev Bus := BitVec 128

/-- The 4-bit operation code (R8, R50). -/
abbrev OpCode := BitVec 4

end Sys2Proof
end

