-- ==== Sys2Proof/Machine/Rounding.lean ====
section
/-! DEFINITION. Exact arithmetic and its two roundings (spec/00_scope.md R9, R13): a non-negative number is an integer
times a power of two, and rounding is done on exact quotients of naturals. -/

namespace Sys2Proof.Machine

/-- The exact non-negative number `sig * 2^exp` (R13: "All arithmetic inside a rule is exact"). -/
structure Scaled where
  sig : Nat
  exp : Int
deriving DecidableEq, Repr

/-- The number a `Scaled` stands for, as a rational: the meaning statements use. -/
def scaledVal (q : Scaled) : ℚ := (q.sig : ℚ) * (2 : ℚ) ^ q.exp

/-- Numerator of `q * 2^k` over `scaledDen q k`. -/
def scaledNum (q : Scaled) (k : Int) : Nat := q.sig * 2 ^ (q.exp + k).toNat

/-- Denominator of `q * 2^k`: a power of two. -/
def scaledDen (q : Scaled) (k : Int) : Nat := 2 ^ (-(q.exp + k)).toNat

/-- `RNE(n / d)`: the nearest integer, of two equally near the even one (R13). -/
def rneDiv (n d : Nat) : Nat :=
  if 2 * (n % d) < d then n / d
  else if d < 2 * (n % d) then n / d + 1
  else n / d + (n / d) % 2

/-- `RHA(n / d)`: the nearest integer, of two equally near the larger one, `floor(n / d + 1/2)` (R13). -/
def rhaDiv (n d : Nat) : Nat := (2 * n + d) / (2 * d)

/-- `RNE(q * 2^k)` (R13). -/
def rne (q : Scaled) (k : Int) : Nat := rneDiv (scaledNum q k) (scaledDen q k)

/-- `RHA(q * 2^k)` (R13). -/
def rha (q : Scaled) (k : Int) : Nat := rhaDiv (scaledNum q k) (scaledDen q k)

/-- `floor(q * 2^k)`; used only where `q * 2^k` is an integer (R12; log 17). -/
def scaledFloor (q : Scaled) (k : Int) : Nat := scaledNum q k / scaledDen q k

/-- `floor(log2 q)` of a `q` that is not zero (R145). -/
def scaledLog2 (q : Scaled) : Int := (Nat.log2 q.sig : Int) + q.exp

/-- The exact sum of two numbers (used by the mechanism of R75). -/
def scaledAdd (p q : Scaled) : Scaled where
  sig := p.sig * 2 ^ (p.exp - min p.exp q.exp).toNat + q.sig * 2 ^ (q.exp - min p.exp q.exp).toNat
  exp := min p.exp q.exp

/-- The exact product with a power of two (used by the mechanism of R86). -/
def scaledShift (q : Scaled) (k : Int) : Scaled where
  sig := q.sig
  exp := q.exp + k

end Sys2Proof.Machine
end

