-- ==== Sys2Proof/Machine/Float.lean ====
section
/-! DEFINITION. IEEE-754 binary32 and binary16 patterns (spec/00_scope.md R11, R12) and the narrowing of
spec/43_half.md R145. -/

namespace Sys2Proof.Machine

/-- What a floating-point pattern stands for (R11): no value, a signed infinity, or a signed exact magnitude. -/
inductive FVal where
  | nan
  | inf (neg : Bool)
  | fin (neg : Bool) (mag : Scaled)
deriving DecidableEq, Repr

/-- Sign bit `x[31]` of a binary32 pattern (R11). -/
def sign32 (x : Lane) : Bool := x.getLsbD 31

/-- Exponent field `x[30:23]` (R11). -/
def exp32 (x : Lane) : Nat := (x.extractLsb' 23 8).toNat

/-- Fraction field `x[22:0]` (R11). -/
def frac32 (x : Lane) : Nat := (x.extractLsb' 0 23).toNat

/-- The exact magnitude of a finite binary32 pattern: `F * 2^-149` when `E = 0`, else `(2^23 + F) * 2^(E-150)` (R11). -/
def mag32 (x : Lane) : Scaled :=
  if exp32 x = 0 then ⟨frac32 x, -149⟩ else ⟨2 ^ 23 + frac32 x, (exp32 x : Int) - 150⟩

/-- `isNaN32(x)` (R11). -/
def isNaN32 (x : Lane) : Bool := exp32 x == 255 && frac32 x != 0

/-- `f32val(x)` (R11). -/
def f32val (x : Lane) : FVal :=
  if isNaN32 x then .nan
  else if exp32 x = 255 then .inf (sign32 x)
  else .fin (sign32 x) (mag32 x)

/-- Sign bit `h[15]` of a binary16 pattern (R11). -/
def sign16 (h : Half) : Bool := h.getLsbD 15

/-- Exponent field `h[14:10]` (R11). -/
def exp16 (h : Half) : Nat := (h.extractLsb' 10 5).toNat

/-- Fraction field `h[9:0]` (R11). -/
def frac16 (h : Half) : Nat := (h.extractLsb' 0 10).toNat

/-- The exact magnitude of a finite binary16 pattern: `F * 2^-24` when `E = 0`, else `(2^10 + F) * 2^(E-25)` (R11). -/
def mag16 (h : Half) : Scaled :=
  if exp16 h = 0 then ⟨frac16 h, -24⟩ else ⟨2 ^ 10 + frac16 h, (exp16 h : Int) - 25⟩

/-- `isNaN16(h)` (R11). -/
def isNaN16 (h : Half) : Bool := exp16 h == 31 && frac16 h != 0

/-- `f16val(h)` (R11). -/
def f16val (h : Half) : FVal :=
  if isNaN16 h then .nan
  else if exp16 h = 31 then .inf (sign16 h)
  else .fin (sign16 h) (mag16 h)

/-- The signed rational value of a finite value, 0 for the others: the meaning statements use. -/
def fvalRat : FVal → ℚ
  | .nan => 0
  | .inf _ => 0
  | .fin neg q => if neg then -scaledVal q else scaledVal q

/-- `f32bits(v)`: the binary32 pattern of an exactly representable non-negative `v`, `f32bits(0) = 0` (R12; log 17 for
other `v`, to which no operation applies it). -/
def f32bits (q : Scaled) : Lane :=
  if q.sig = 0 then 0
  else if -126 ≤ scaledLog2 q then
    BitVec.ofNat 32 ((scaledLog2 q + 127).toNat * 2 ^ 23 + (scaledFloor q (23 - scaledLog2 q) - 2 ^ 23))
  else BitVec.ofNat 32 (scaledFloor q 149)

/-- A non-negative exact number rounded to binary32, nearest with ties to even, overflow to infinity: the rounding of
the binary32 additions, divisions and products that R75 and R86 speak of. -/
def f32round (q : Scaled) : Lane :=
  if q.sig = 0 then 0
  else if -126 ≤ scaledLog2 q then
    BitVec.ofNat 32 (min 0x7F800000
      ((scaledLog2 q + 127).toNat * 2 ^ 23 + (rne q (23 - scaledLog2 q) - 2 ^ 23)))
  else BitVec.ofNat 32 (rne q 149)

/-- `NARROW16(q)` (R145): round to nearest binary16, ties to even, overflow to infinity from 65520 on, gradual
underflow. -/
def narrow16 (q : Scaled) : Half :=
  if 65520 * scaledDen q 0 ≤ scaledNum q 0 then 0x7C00
  else if scaledNum q 14 < scaledDen q 14 then BitVec.ofNat 16 (rne q 24)
  else
    let p := scaledLog2 q
    let m := rne q (10 - p)
    if m = 2048 then 0#1 ++ BitVec.ofNat 5 (p + 16).toNat ++ 0#10
    else 0#1 ++ BitVec.ofNat 5 (p + 15).toNat ++ BitVec.ofNat 10 (m - 1024)

end Sys2Proof.Machine
end

