-- ==== Sys2Proof/Syntax.lean ====
section
/-! DEFINITION. The texels, the transactions (one constructor per row of spec/opcode_table.json, with the
operand fields of the row's operand format, spec/30_encoding.md R51) and what the host drives on the input
ports in one cycle (spec/10_state.md R23). -/

namespace Sys2Proof

/-- An RGB9E5 texel: three 9-bit mantissas and the 5-bit shared exponent (R2, R52). -/
structure Rgb9e5 where
  r : BitVec 9
  g : BitVec 9
  b : BitVec 9
  e : BitVec 5
deriving DecidableEq, Repr

/-- An RGBE8 texel: three 8-bit mantissas and the 8-bit shared exponent (R2, R52). -/
structure Rgbe8 where
  r : BitVec 8
  g : BitVec 8
  b : BitVec 8
  e : BitVec 8
deriving DecidableEq, Repr

/-- A transaction: an operation together with the operand fields its format names (R3, R22, R53). -/
inductive Instr where
  /-- 0x0 PACK_RGB9E5, format F3 (R70). -/
  | packRgb9e5 (r g b : Lane)
  /-- 0x1 PACK_RGBE8, format F3 (R80). -/
  | packRgbe8 (r g b : Lane)
  /-- 0x2 UNPACK_RGB9E5, format W9 (R100). -/
  | unpackRgb9e5 (w : Rgb9e5)
  /-- 0x3 UNPACK_RGBE8, format E8 (R105). -/
  | unpackRgbe8 (t : Rgbe8)
  /-- 0x4 REPACK_E8_9E5, format E8 (R120). -/
  | repackE8To9e5 (t : Rgbe8)
  /-- 0x5 REPACK_9E5_E8, format W9 (R126). -/
  | repack9e5ToE8 (w : Rgb9e5)
  /-- 0x6 H2F, format H4 (R140). -/
  | h2f (r g b a : Half)
  /-- 0x7 F2H, format F4 (R144). -/
  | f2h (r g b a : Lane)
  /-- 0x8 H16_TO_RGB9E5, format H4; alpha is carried and ignored (R150). -/
  | h16ToRgb9e5 (r g b a : Half)
  /-- 0x9 H16_TO_RGBE8, format H4; alpha is carried and ignored (R152). -/
  | h16ToRgbe8 (r g b a : Half)
  /-- 0xA RGB9E5_TO_H16, format W9 (R154). -/
  | rgb9e5ToH16 (w : Rgb9e5)
deriving DecidableEq, Repr

/-- The five reserved operation codes (R54), by name. -/
inductive ReservedCode where
  | codeB
  | codeC
  | codeD
  | codeE
  | codeF
deriving DecidableEq, Repr

/-- What the host drives on the input ports during one cycle (R23). `rst` is a port of a block with
`P_LATENCY >= 1` only. -/
structure Ports where
  rst : Bool
  inValid : Bool
  op : OpCode
  src : Bus
deriving DecidableEq, Repr

end Sys2Proof
end

