-- ==== Sys2Proof/Machine/Operands.lean ====
section
/-! DEFINITION. Where every operand and result field sits on the buses: lanes and half slots
(spec/00_scope.md R14), texel layouts (spec/30_encoding.md R52), operand formats (R51) and result formats (R55). -/

namespace Sys2Proof.Machine

/-- `src.L<i>`, bits `32*i+31 .. 32*i` (R14). -/
def lane (x : Bus) (i : Nat) : Lane := x.extractLsb' (32 * i) 32

/-- `src.H<k>`, bits `16*k+15 .. 16*k` (R14). -/
def half (x : Bus) (k : Nat) : Half := x.extractLsb' (16 * k) 16

/-- The fields of an RGB9E5 word: `R = w[8:0]`, `G = w[17:9]`, `B = w[26:18]`, `E = w[31:27]` (R52). -/
def rgb9e5OfWord (w : Lane) : Rgb9e5 where
  r := w.extractLsb' 0 9
  g := w.extractLsb' 9 9
  b := w.extractLsb' 18 9
  e := w.extractLsb' 27 5

/-- The word of an RGB9E5 texel, `{E, B, G, R}` (R52, R74). -/
def rgb9e5ToWord (t : Rgb9e5) : Lane := t.e ++ t.b ++ t.g ++ t.r

/-- The fields of an RGBE8 lane: `r` in bits 7:0 up to `e` in bits 31:24 (R51). -/
def rgbe8OfLane (x : Lane) : Rgbe8 where
  r := x.extractLsb' 0 8
  g := x.extractLsb' 8 8
  b := x.extractLsb' 16 8
  e := x.extractLsb' 24 8

/-- The lane of an RGBE8 texel, `{e, b, g, r}` (R55, R85). -/
def rgbe8ToLane (t : Rgbe8) : Lane := t.e ++ t.b ++ t.g ++ t.r

/-- Result format W9: the word in lane 0, zero above (R55). -/
def busOfW9 (t : Rgb9e5) : Bus := (rgb9e5ToWord t).setWidth 128

/-- Result format E8: the texel in lane 0, zero above (R55). -/
def busOfE8 (t : Rgbe8) : Bus := (rgbe8ToLane t).setWidth 128

/-- Result format F3: three lanes, lane 3 zero (R55). -/
def busOfF3 (r g b : Lane) : Bus := 0#32 ++ b ++ g ++ r

/-- Result format F4: four lanes (R55). -/
def busOfF4 (r g b a : Lane) : Bus := a ++ b ++ g ++ r

/-- Result format H4: four half slots in the low 64 bits, zero above (R55). -/
def busOfH4 (r g b a : Half) : Bus := 0#64 ++ a ++ b ++ g ++ r

end Sys2Proof.Machine
end

