-- ==== Sys2Proof/WellFormed.lean ====
section
/-! DEFINITION. What is well formed. Every operand bit pattern of every operation is valid (spec/30_encoding.md
R52, spec/60_exceptions.md R170), so every transaction is; what the host drives in a cycle must use only ports the
block has (spec/10_state.md R23: `rst` is present only when `P_LATENCY >= 1`). -/

namespace Sys2Proof

/-- Every transaction is well formed: its operand fields have the widths of its format, and all their
patterns are valid (R52, R170). -/
def wellFormed : Instr → Bool
  | .packRgb9e5 _ _ _ => true
  | .packRgbe8 _ _ _ => true
  | .unpackRgb9e5 _ => true
  | .unpackRgbe8 _ => true
  | .repackE8To9e5 _ => true
  | .repack9e5ToE8 _ => true
  | .h2f _ _ _ _ => true
  | .f2h _ _ _ _ => true
  | .h16ToRgb9e5 _ _ _ _ => true
  | .h16ToRgbe8 _ _ _ _ => true
  | .rgb9e5ToH16 _ => true

/-- A cycle's inputs use only ports a block of this latency has: no `rst` when `P_LATENCY = 0` (R23). -/
def portsWellFormed (latency : Nat) (p : Ports) : Bool :=
  !p.rst || decide (1 ≤ latency)

end Sys2Proof
end

