-- ==== Sys2Proof/Decode.lean ====
section
/-! DEFINITION. The decoder and the encoder of transactions (spec/30_encoding.md R50, R51, R53, R54), total on
every operation code and operand. -/

namespace Sys2Proof

open Machine

/-- What a presented operation code and operand are: a transaction of one of the eleven operations, or a
reserved code, by name (R53, R54). -/
inductive Decoded where
  | transaction (i : Instr)
  | reserved (c : ReservedCode)
deriving DecidableEq, Repr

/-- The decoder: `op[3:0]` alone selects the operation (R50, R53); the operand fields are taken from `src` as the
operation's format places them (R51, R57), and every other bit of `src` is ignored. -/
def decode (op : OpCode) (src : Bus) : Decoded :=
  match op.toNat with
  | 0x0 => .transaction (.packRgb9e5 (lane src 0) (lane src 1) (lane src 2))
  | 0x1 => .transaction (.packRgbe8 (lane src 0) (lane src 1) (lane src 2))
  | 0x2 => .transaction (.unpackRgb9e5 (rgb9e5OfWord (lane src 0)))
  | 0x3 => .transaction (.unpackRgbe8 (rgbe8OfLane (lane src 0)))
  | 0x4 => .transaction (.repackE8To9e5 (rgbe8OfLane (lane src 0)))
  | 0x5 => .transaction (.repack9e5ToE8 (rgb9e5OfWord (lane src 0)))
  | 0x6 => .transaction (.h2f (half src 0) (half src 1) (half src 2) (half src 3))
  | 0x7 => .transaction (.f2h (lane src 0) (lane src 1) (lane src 2) (lane src 3))
  | 0x8 => .transaction (.h16ToRgb9e5 (half src 0) (half src 1) (half src 2) (half src 3))
  | 0x9 => .transaction (.h16ToRgbe8 (half src 0) (half src 1) (half src 2) (half src 3))
  | 0xA => .transaction (.rgb9e5ToH16 (rgb9e5OfWord (lane src 0)))
  | 0xB => .reserved .codeB
  | 0xC => .reserved .codeC
  | 0xD => .reserved .codeD
  | 0xE => .reserved .codeE
  | _ => .reserved .codeF

/-- The encoder: the operation code of R53 and the operand placed as R51 says, with every bit the format does
not name zero (R58: "Lanes not listed are zero"; log 14). -/
def encode : Instr → OpCode × Bus
  | .packRgb9e5 r g b => (0x0, 0#32 ++ b ++ g ++ r)
  | .packRgbe8 r g b => (0x1, 0#32 ++ b ++ g ++ r)
  | .unpackRgb9e5 w => (0x2, 0#96 ++ rgb9e5ToWord w)
  | .unpackRgbe8 t => (0x3, 0#96 ++ rgbe8ToLane t)
  | .repackE8To9e5 t => (0x4, 0#96 ++ rgbe8ToLane t)
  | .repack9e5ToE8 w => (0x5, 0#96 ++ rgb9e5ToWord w)
  | .h2f r g b a => (0x6, 0#64 ++ a ++ b ++ g ++ r)
  | .f2h r g b a => (0x7, a ++ b ++ g ++ r)
  | .h16ToRgb9e5 r g b a => (0x8, 0#64 ++ a ++ b ++ g ++ r)
  | .h16ToRgbe8 r g b a => (0x9, 0#64 ++ a ++ b ++ g ++ r)
  | .rgb9e5ToH16 w => (0xA, 0#96 ++ rgb9e5ToWord w)

/-- Which bits of `src` the operand format of an operation code names (R51); a reserved code names none (R53). -/
def namedBits (op : OpCode) : Bus :=
  match op.toNat with
  | 0x0 => 0x00000000FFFFFFFFFFFFFFFFFFFFFFFF
  | 0x1 => 0x00000000FFFFFFFFFFFFFFFFFFFFFFFF
  | 0x2 => 0x000000000000000000000000FFFFFFFF
  | 0x3 => 0x000000000000000000000000FFFFFFFF
  | 0x4 => 0x000000000000000000000000FFFFFFFF
  | 0x5 => 0x000000000000000000000000FFFFFFFF
  | 0x6 => 0x0000000000000000FFFFFFFFFFFFFFFF
  | 0x7 => 0xFFFFFFFFFFFFFFFFFFFFFFFFFFFFFFFF
  | 0x8 => 0x0000000000000000FFFFFFFFFFFFFFFF
  | 0x9 => 0x0000000000000000FFFFFFFFFFFFFFFF
  | 0xA => 0x000000000000000000000000FFFFFFFF
  | _ => 0

/-- The operation code in a word of spec/opcode_table.json: the table gives the code alone, so bits above
`nbits` are 0 and the decoder reads `op[3:0]` (R50; log 10). -/
def tableOp (nbits w : Nat) : OpCode := BitVec.ofNat 4 (w % 2 ^ nbits)

/-- The transaction a word of spec/opcode_table.json stands for: its code with an operand of zeros; `none` for a
reserved code (log 10). -/
def decodeTableWord (nbits w : Nat) : Option Instr :=
  match decode (tableOp nbits w) 0 with
  | .transaction i => some i
  | .reserved _ => none

end Sys2Proof
end

