-- ==== Sys2Proof/Config.lean ====
section
/-! DEFINITION. What an implementation fixes (P_LATENCY), the fixed quantities of spec/00_scope.md R8,
and the values the spec leaves open, as constants without a body. -/

namespace Sys2Proof

/-- `P_LATENCY` of the machine that `State.reset` gives: the spec's default, 0 (R7, D1). Every other value
is `State.resetAt L`; statements over all states cover every latency (log 1). -/
def Config.pLatency : Nat := 0

/-- Binary32 pattern of 65408, the RGB9E5 clamp maximum (R8). -/
def Config.clampMax9 : Lane := 0x477F8000

/-- Binary32 pattern of `2^-16`, the floor of the RGB9E5 maximum (R8). -/
def Config.floor9 : Lane := 0x37800000

/-- Binary32 pattern of `2^-126`, the floor of the RGBE8 maximum (R8, D8). -/
def Config.floorE8 : Lane := 0x00800000

/-- Half a unit of the 9th significant bit of a binary32 pattern (R72). -/
def Config.addend9 : Nat := 0x4000

/-- Half a unit of the 8th significant bit of a binary32 pattern (R8, D9). -/
def Config.addendE8 : Nat := 0x8000

/-- FREE VALUE: a `dst` nothing specifies (93 I2, I3; log 4, 5). -/
opaque Config.freeDst : Nat → Bus

/-- FREE VALUE: an `illegal` nothing specifies (93 I2, I3; log 4, 5). -/
opaque Config.freeIllegal : Nat → Bool

/-- FREE VALUE: a valid bit at power-up (93 I4, R192; log 6). -/
opaque Config.freeValid : Nat → Bool

/-- FREE VALUE: the `op` an idle host leaves on the port (R201; log 2). -/
opaque Config.freeOp : Nat → OpCode

/-- FREE VALUE: the `src` an idle host leaves on the port (R201; log 2). -/
opaque Config.freeSrc : Nat → Bus

end Sys2Proof
end

