-- ==== Sys2Proof/Machine/Pipeline.lean ====
section
/-! DEFINITION. Results, pipeline stages and driven outputs (spec/10_state.md R23, R24, R28, R29). -/

namespace Sys2Proof.Machine

/-- What the block computes for one transaction: `(dst, illegal)` (R24). -/
structure Result where
  dst : Bus
  illegal : Bool
deriving DecidableEq, Repr

/-- One pipeline stage: the valid bit `v_j` and the data `d_j` (R28). -/
structure Stage where
  valid : Bool
  result : Result
deriving DecidableEq, Repr

/-- What the block drives on its output ports during one cycle (R23). -/
structure Outputs where
  outValid : Bool
  dst : Bus
  illegal : Bool
deriving DecidableEq, Repr

/-- The `n`-th unspecified `dst` and `illegal`: free values (93 I2, I3; log 4, 5). -/
def freeResult (n : Nat) : Result := ⟨Config.freeDst n, Config.freeIllegal n⟩

/-- The stages after a reset edge, for a block of `k` stages: every `v_j` is 0 and every `d_j` unspecified, drawn
from index `n` on (R29, R190; log 5). -/
def freshStages (n : Nat) : Nat → List Stage
  | 0 => []
  | k + 1 => ⟨false, freeResult n⟩ :: freshStages (n + 1) k

/-- The stages at power-up, before any reset edge: every `v_j` and `d_j` unspecified (R192, 93 I4; log 6). -/
def powerUpStages (n : Nat) : Nat → List Stage
  | 0 => []
  | k + 1 => ⟨Config.freeValid n, freeResult n⟩ :: powerUpStages (n + 1) k

/-- The stage whose contents drive the outputs in a cycle: the last one, `L`; with no stages (`P_LATENCY = 0`) what
is presented in the same cycle (R27, R28). -/
def lastStage (presented : Stage) (pipe : List Stage) : Stage := pipe.getLastD presented

/-- The stages after an edge with `rst = 0`: the presented one enters stage 1 and every other moves on by one (R28). -/
def shiftStages (presented : Stage) (pipe : List Stage) : List Stage := (presented :: pipe).dropLast

/-- The outputs driven from a stage: its result while it is valid, else `out_valid = 0` and unspecified data,
drawn at index `n` (R27, R29; log 4). -/
def driveOutputs (o : Stage) (n : Nat) : Outputs :=
  if o.valid then ⟨true, o.result.dst, o.result.illegal⟩
  else ⟨false, (freeResult n).dst, (freeResult n).illegal⟩

/-- What the host has captured after a cycle: a presented result is captured in its cycle (R197, R200; log 11). -/
def capture (o : Stage) (captured : List Result) : List Result :=
  if o.valid then captured ++ [o.result] else captured

end Sys2Proof.Machine
end

