-- ==== Sys2Proof/Machine/Flags.lean ====
section
/-! DEFINITION. The one flag-like output, `illegal` (spec/10_state.md R25): 0 for every operation, 1 for a reserved
code. There are no condition codes and no IEEE-754 flags (R25, spec/60_exceptions.md R172). -/

namespace Sys2Proof.Machine

/-- `illegal` as a function of the operation code: 1 for 0xB to 0xF and 0 otherwise (R25, R54). -/
def illegalFlag (op : OpCode) : Bool := decide (11 ≤ op.toNat)

/-- The result of an operation: its `dst`, and `illegal <- 0` (R24, R25). -/
def legalResult (dst : Bus) : Result := ⟨dst, false⟩

/-- The result of a reserved code: `dst = 0` (all 128 bits) and `illegal = 1` (R171). -/
def reservedResult : Result := ⟨0, true⟩

end Sys2Proof.Machine
end

