-- ==== Sys2Proof/Machine/State.lean ====
section
/-! DEFINITION. The state: the ports, the pipeline registers (spec/10_state.md R23, R28), the host's side of the
interface (spec/70_reset_and_hazards.md R200, R201) and the count of free draws. The block has no architectural state
(spec/10_state.md R20) and no memory (spec/20_memory.md R40). -/

namespace Sys2Proof.Machine

structure State where
  /-- What the host drives on the input ports during the current cycle (R23). -/
  ports : Ports
  /-- What it drives in the cycles after, oldest first; then it idles (R22, R201; log 2). -/
  host : List Ports
  /-- The pipeline stages 1 to L, stage 1 first; its length is `P_LATENCY` (R7, R28; log 1). -/
  pipe : List Stage
  /-- What the block drove on the output ports during the cycle the last step completed (R23, R27; log 3). -/
  out : Outputs
  /-- The results the host has captured, in the order presented (R197, R200; log 11). -/
  results : List Result
  /-- The model's own: how many free values have been drawn (log 4). -/
  draws : Nat
deriving DecidableEq, Repr

/-- Nothing faults: the block raises no exception for any operation and any operand, and a reserved code has a
specified result (R170, R171). The type has no constructor, so no step can end in a fault. -/
inductive Fault where
deriving DecidableEq, Repr

/-- The reasons a step refuses. -/
inductive Refusal where
  /-- Raised only by `exec`'s arm of an instruction without a meaning; no arm is one. Safe. -/
  | notModelled (mnemonic : String)
deriving DecidableEq, Repr

/-- `P_LATENCY` of a machine: the number of its pipeline stages (R7, R28; log 1). -/
def State.latency (s : State) : Nat := s.pipe.length

/-- A host that presents nothing, with `op` and `src` at the value log 7 names. -/
def Ports.quiet : Ports := ⟨false, false, 0, 0⟩

/-- The machine of latency `L` right after a reset edge: every `v_j` is 0 and every `d_j` unspecified (R29, R190);
the ports, the outputs, the host's side and the count of draws are at the values log 7 names. -/
def State.resetAt (L : Nat) : State where
  ports := Ports.quiet
  host := []
  pipe := freshStages 0 L
  out := ⟨false, 0, false⟩
  results := []
  draws := L

/-- The machine right after reset, with the spec's default `P_LATENCY` (R7, R190). -/
def State.reset : State := State.resetAt Config.pLatency

/-- The machine of latency `L` at power-up, before any reset edge: the `v_j` and `d_j` are any values (R192). -/
def State.powerUp (L : Nat) : State :=
  let s := State.resetAt L
  ⟨s.ports, s.host, powerUpStages 0 L, s.out, s.results, s.draws⟩

end Sys2Proof.Machine
end

