-- ==== Sys2Proof/Machine/Ops.lean ====
section
/-! DEFINITION. The named operations over the state: what is presented on the ports, one clock cycle, and what a
reserved code does. There is no memory (spec/20_memory.md R40), no exception entry and no return from one
(spec/60_exceptions.md R170, R177, R178). -/

namespace Sys2Proof.Machine

/-- What an idle host drives when nothing more is queued: `rst = 0`, `in_valid = 0`, `op` and `src` at any value,
drawn at index `n` (R201 "leave `op` and `src` at any value"; log 2). -/
def idlePorts (n : Nat) : Ports := ⟨false, false, Config.freeOp n, Config.freeSrc n⟩

/-- The host's inputs in the next cycle: the oldest queued, else idle (log 2). -/
def nextPorts (n : Nat) : List Ports → Ports
  | [] => idlePorts n
  | p :: _ => p

/-- ONE CLOCK CYCLE in which the stage-1 input is `presented` (R27 to R29). During the cycle the last stage drives the
outputs and the host captures a valid result; at the edge that ends it the stages move on by one, or, with `rst = 1`,
are all cleared. With no stages there is nothing to clear: `rst` has no effect, as the port is absent then (R23; log 9).
Free values: one for the outputs, one for each stage, one for the idle ports. -/
def runCycle (presented : Stage) (s : State) : State where
  ports := nextPorts (s.draws + s.pipe.length + 1) s.host
  host := s.host.tail
  pipe := if s.ports.rst then freshStages (s.draws + 1) s.pipe.length else shiftStages presented s.pipe
  out := driveOutputs (lastStage presented s.pipe) s.draws
  results := capture (lastStage presented s.pipe) s.results
  draws := s.draws + s.pipe.length + 2

/-- A cycle in which a transaction with this result is presented (R22, R27). -/
def present (r : Result) (s : State) : State := runCycle ⟨true, r⟩ s

/-- What is presented on the ports in the current cycle: nothing, a transaction, or a reserved code (R22, R50). -/
def presented (s : State) : Option Decoded :=
  if s.ports.inValid then some (decode s.ports.op s.ports.src) else none

/-- What a reserved code does, whichever it is: `dst = 0` and `illegal = 1`, presented like any other result, and no
other effect (R171; log 8). -/
def takeReserved (_c : ReservedCode) (s : State) : Host.Outcome State Fault Refusal :=
  .next (present reservedResult s)

end Sys2Proof.Machine
end

