-- ==== Sys2Proof/Machine/Pack.lean ====
section
/-! DEFINITION. The sub-unit fp_to_shared_exp_pack: PACK_RGB9E5 and PACK_RGBE8 (spec/40_pack.md R70 to R89), as exact
arithmetic. -/

namespace Sys2Proof.Machine

/-- The channel clamp `CL9(x)` (R71). -/
def cl9 (x : Lane) : Lane :=
  if isNaN32 x then 0
  else if sign32 x then 0
  else if Config.clampMax9 < x then Config.clampMax9
  else x

/-- `mx = max(r9, g9, b9, floor)`, an unsigned compare of patterns (R72). -/
def packMax9 (r g b : Lane) : Nat :=
  max (max (cl9 r).toNat (cl9 g).toNat) (max (cl9 b).toNat Config.floor9.toNat)

/-- The stored exponent `E = ((mx + 0x4000) >> 23) - 111` (R72). -/
def packExp9 (r g b : Lane) : Nat := (packMax9 r g b + Config.addend9) / 2 ^ 23 - 111

/-- A mantissa `RNE(f32val(c9) * 2^(24 - E))` (R73). -/
def packMantissa9 (E : Nat) (x : Lane) : Nat := rne (mag32 (cl9 x)) (24 - (E : Int))

/-- PACK_RGB9E5 of three binary32 patterns (R70, R74). -/
def packRgb9e5 (r g b : Lane) : Rgb9e5 where
  r := BitVec.ofNat 9 (packMantissa9 (packExp9 r g b) r)
  g := BitVec.ofNat 9 (packMantissa9 (packExp9 r g b) g)
  b := BitVec.ofNat 9 (packMantissa9 (packExp9 r g b) b)
  e := BitVec.ofNat 5 (packExp9 r g b)

/-- The pattern of a channel as it takes part in the RGBE8 maximum: only those that are not a NaN and have a clear
sign bit; the others count as 0, below the floor (R80, R82). -/
def packKeyE8 (x : Lane) : Nat := if isNaN32 x || sign32 x then 0 else x.toNat

/-- `mx = max(P union {floor})` (R80, R82). -/
def packMaxE8 (r g b : Lane) : Nat :=
  max (max (packKeyE8 r) (packKeyE8 g)) (max (packKeyE8 b) Config.floorE8.toNat)

/-- `Er = (mx + 0x8000) >> 23` (R83). -/
def packErE8 (r g b : Lane) : Nat := (packMaxE8 r g b + Config.addendE8) / 2 ^ 23

/-- The exponent byte `e = min(Er + 2, 255)` (R83). -/
def packExpE8 (r g b : Lane) : Nat := min (packErE8 r g b + 2) 255

/-- A channel of RGBE8: 255 for `+infinity`, 0 for NaN and every `v <= 0`, else `min(255, RHA(v * 2^(136 - e)))`
(R81, R84). -/
def packMantissaE8 (e : Nat) (x : Lane) : Nat :=
  match f32val x with
  | .nan => 0
  | .inf neg => if neg then 0 else 255
  | .fin neg q => if neg then 0 else min 255 (rha q (136 - (e : Int)))

/-- PACK_RGBE8 of three binary32 patterns (R80, R85). -/
def packRgbe8 (r g b : Lane) : Rgbe8 where
  r := BitVec.ofNat 8 (packMantissaE8 (packExpE8 r g b) r)
  g := BitVec.ofNat 8 (packMantissaE8 (packExpE8 r g b) g)
  b := BitVec.ofNat 8 (packMantissaE8 (packExpE8 r g b) b)
  e := BitVec.ofNat 8 (packExpE8 r g b)

/-- The result of PACK_RGB9E5 (R70). -/
def packRgb9e5Result (r g b : Lane) : Result := legalResult (busOfW9 (packRgb9e5 r g b))

/-- The result of PACK_RGBE8 (R80). -/
def packRgbe8Result (r g b : Lane) : Result := legalResult (busOfE8 (packRgbe8 r g b))

/-- PACK_RGB9E5 (R70). -/
def execPackRgb9e5 (r g b : Lane) (s : State) : Host.Outcome State Fault Refusal :=
  .next (present (packRgb9e5Result r g b) s)

/-- PACK_RGBE8 (R80). -/
def execPackRgbe8 (r g b : Lane) (s : State) : Host.Outcome State Fault Refusal :=
  .next (present (packRgbe8Result r g b) s)

end Sys2Proof.Machine
end

