-- ==== Sys2Proof/Machine/Unpack.lean ====
section
/-! DEFINITION. The sub-unit shared_exp_to_fp_unpack: UNPACK_RGB9E5 and UNPACK_RGBE8 (spec/41_unpack.md R100 to R107).
Both are exact. -/

namespace Sys2Proof.Machine

/-- A float triple: three binary32 patterns (spec/00_scope.md R2). -/
structure FloatTriple where
  r : Lane
  g : Lane
  b : Lane
deriving DecidableEq, Repr

/-- The value `m * 2^(E - 24)` of an RGB9E5 mantissa at stored exponent `E` (R101). -/
def channelVal9 (e : BitVec 5) (m : BitVec 9) : Scaled := ⟨m.toNat, (e.toNat : Int) - 24⟩

/-- The value `n * 2^(e - 136)` of an RGBE8 byte at exponent byte `e` (R106). -/
def channelValE8 (e n : BitVec 8) : Scaled := ⟨n.toNat, (e.toNat : Int) - 136⟩

/-- UNPACK_RGB9E5 (R100). -/
def unpackRgb9e5 (w : Rgb9e5) : FloatTriple where
  r := f32bits (channelVal9 w.e w.r)
  g := f32bits (channelVal9 w.e w.g)
  b := f32bits (channelVal9 w.e w.b)

/-- UNPACK_RGBE8 (R105). -/
def unpackRgbe8 (t : Rgbe8) : FloatTriple where
  r := f32bits (channelValE8 t.e t.r)
  g := f32bits (channelValE8 t.e t.g)
  b := f32bits (channelValE8 t.e t.b)

/-- A float triple as a result of format F3 (spec/30_encoding.md R55). -/
def tripleResult (v : FloatTriple) : Result := legalResult (busOfF3 v.r v.g v.b)

/-- The result of UNPACK_RGB9E5 (R100). -/
def unpackRgb9e5Result (w : Rgb9e5) : Result := tripleResult (unpackRgb9e5 w)

/-- The result of UNPACK_RGBE8 (R105). -/
def unpackRgbe8Result (t : Rgbe8) : Result := tripleResult (unpackRgbe8 t)

/-- UNPACK_RGB9E5 (R100). -/
def execUnpackRgb9e5 (w : Rgb9e5) (s : State) : Host.Outcome State Fault Refusal :=
  .next (present (unpackRgb9e5Result w) s)

/-- UNPACK_RGBE8 (R105). -/
def execUnpackRgbe8 (t : Rgbe8) (s : State) : Host.Outcome State Fault Refusal :=
  .next (present (unpackRgbe8Result t) s)

end Sys2Proof.Machine
end

