-- ==== Sys2Proof/Machine/HalfConv.lean ====
section
/-! DEFINITION. The sub-units half_to_fp_converter and fp_to_half_converter: H2F, F2H and the conversions composed from
them (spec/43_half.md R140 to R156). -/

namespace Sys2Proof.Machine

/-- H2F of one half (R140): a NaN keeps its sign and payload with the quiet bit forced (R142), an infinity its sign,
every other value is exact (R141). -/
def widen (h : Half) : Lane :=
  match f16val h with
  | .nan => h.extractLsb' 15 1 ++ 0xFF#8 ++ 1#1 ++ h.extractLsb' 0 9 ++ 0#13
  | .inf _ => h.extractLsb' 15 1 ++ 0xFF#8 ++ 0#23
  | .fin _ q => h.extractLsb' 15 1 ++ (f32bits q).extractLsb' 0 31

/-- F2H of one binary32 pattern (R144): a NaN keeps its sign and the top payload bits with the quiet bit forced, an
infinity its sign (R146), every other value is rounded (R145). -/
def narrow (x : Lane) : Half :=
  match f32val x with
  | .nan => x.extractLsb' 31 1 ++ 0x1F#5 ++ 1#1 ++ x.extractLsb' 13 9
  | .inf _ => x.extractLsb' 31 1 ++ 0x1F#5 ++ 0#10
  | .fin _ q => x.extractLsb' 31 1 ++ (narrow16 q).extractLsb' 0 15

/-- The alpha 1.0 that RGB9E5_TO_H16 sets, as binary32 (R154). -/
def alphaOne : Lane := 0x3F800000

/-- H16_TO_RGB9E5: widen, discard alpha, pack (R150). -/
def h16ToRgb9e5 (r g b _a : Half) : Rgb9e5 := packRgb9e5 (widen r) (widen g) (widen b)

/-- H16_TO_RGBE8: widen, discard alpha, pack (R152). -/
def h16ToRgbe8 (r g b _a : Half) : Rgbe8 := packRgbe8 (widen r) (widen g) (widen b)

/-- The result of H2F (R140). -/
def h2fResult (r g b a : Half) : Result := legalResult (busOfF4 (widen r) (widen g) (widen b) (widen a))

/-- The result of F2H (R144). -/
def f2hResult (r g b a : Lane) : Result := legalResult (busOfH4 (narrow r) (narrow g) (narrow b) (narrow a))

/-- The result of H16_TO_RGB9E5 (R150). -/
def h16ToRgb9e5Result (r g b a : Half) : Result := legalResult (busOfW9 (h16ToRgb9e5 r g b a))

/-- The result of H16_TO_RGBE8 (R152). -/
def h16ToRgbe8Result (r g b a : Half) : Result := legalResult (busOfE8 (h16ToRgbe8 r g b a))

/-- The result of RGB9E5_TO_H16: unpack, alpha 1.0, narrow (R154). -/
def rgb9e5ToH16Result (w : Rgb9e5) : Result :=
  f2hResult (unpackRgb9e5 w).r (unpackRgb9e5 w).g (unpackRgb9e5 w).b alphaOne

/-- H2F (R140). -/
def execH2f (r g b a : Half) (s : State) : Host.Outcome State Fault Refusal :=
  .next (present (h2fResult r g b a) s)

/-- F2H (R144). -/
def execF2h (r g b a : Lane) (s : State) : Host.Outcome State Fault Refusal :=
  .next (present (f2hResult r g b a) s)

/-- H16_TO_RGB9E5 (R150). -/
def execH16ToRgb9e5 (r g b a : Half) (s : State) : Host.Outcome State Fault Refusal :=
  .next (present (h16ToRgb9e5Result r g b a) s)

/-- H16_TO_RGBE8 (R152). -/
def execH16ToRgbe8 (r g b a : Half) (s : State) : Host.Outcome State Fault Refusal :=
  .next (present (h16ToRgbe8Result r g b a) s)

/-- RGB9E5_TO_H16 (R154). -/
def execRgb9e5ToH16 (w : Rgb9e5) (s : State) : Host.Outcome State Fault Refusal :=
  .next (present (rgb9e5ToH16Result w) s)

end Sys2Proof.Machine
end

