-- ==== Sys2Proof/Machine/Repack.lean ====
section
/-! DEFINITION. The sub-unit shared_exp_repack: REPACK_E8_9E5 and REPACK_9E5_E8 (spec/42_repack.md R120 to R127). -/

namespace Sys2Proof.Machine

/-- Whether a texel takes the fast path: `-15 <= e - 128 <= 15` (R120, R121). -/
def repackFast (t : Rgbe8) : Bool := decide (113 ≤ t.e.toNat) && decide (t.e.toNat ≤ 143)

/-- The fast path: `E5 = e - 128 + 15` and each mantissa shifted left by one (R121), whatever the mantissas (D13, C2). -/
def repackTransplant (t : Rgbe8) : Rgb9e5 where
  r := t.r ++ 0#1
  g := t.g ++ 0#1
  b := t.b ++ 0#1
  e := BitVec.ofNat 5 (t.e.toNat - 113)

/-- PACK_RGB9E5 of a float triple (R70), as the fallback of R122 calls it. -/
def packTriple9 (v : FloatTriple) : Rgb9e5 := packRgb9e5 v.r v.g v.b

/-- PACK_RGBE8 of a float triple (R80), as R126 calls it. -/
def packTripleE8 (v : FloatTriple) : Rgbe8 := packRgbe8 v.r v.g v.b

/-- REPACK_E8_9E5: the fast path where the exponent ranges overlap, else unpack then pack (R120, R122). -/
def repackE8To9e5 (t : Rgbe8) : Rgb9e5 :=
  if repackFast t then repackTransplant t else packTriple9 (unpackRgbe8 t)

/-- REPACK_9E5_E8: unpack then pack (R126, D14). -/
def repack9e5ToE8 (w : Rgb9e5) : Rgbe8 := packTripleE8 (unpackRgb9e5 w)

/-- The result of REPACK_E8_9E5 (R120). -/
def repackE8To9e5Result (t : Rgbe8) : Result := legalResult (busOfW9 (repackE8To9e5 t))

/-- The result of REPACK_9E5_E8 (R126). -/
def repack9e5ToE8Result (w : Rgb9e5) : Result := legalResult (busOfE8 (repack9e5ToE8 w))

/-- REPACK_E8_9E5 (R120). -/
def execRepackE8To9e5 (t : Rgbe8) (s : State) : Host.Outcome State Fault Refusal :=
  .next (present (repackE8To9e5Result t) s)

/-- REPACK_9E5_E8 (R126). -/
def execRepack9e5ToE8 (w : Rgb9e5) (s : State) : Host.Outcome State Fault Refusal :=
  .next (present (repack9e5ToE8Result w) s)

end Sys2Proof.Machine
end

