-- ==== Sys2Proof/Machine/ResultFn.lean ====
section
/-! DEFINITION. The result function `EXEC` (spec/10_state.md R24), and the idle cycle, which loads it into stage 1 with
a clear valid bit (R28). -/

namespace Sys2Proof.Machine

/-- The result of a transaction (R24). -/
def resultOf : Instr → Result
  | .packRgb9e5 r g b => packRgb9e5Result r g b
  | .packRgbe8 r g b => packRgbe8Result r g b
  | .unpackRgb9e5 w => unpackRgb9e5Result w
  | .unpackRgbe8 t => unpackRgbe8Result t
  | .repackE8To9e5 t => repackE8To9e5Result t
  | .repack9e5ToE8 w => repack9e5ToE8Result w
  | .h2f r g b a => h2fResult r g b a
  | .f2h r g b a => f2hResult r g b a
  | .h16ToRgb9e5 r g b a => h16ToRgb9e5Result r g b a
  | .h16ToRgbe8 r g b a => h16ToRgbe8Result r g b a
  | .rgb9e5ToH16 w => rgb9e5ToH16Result w

/-- `EXEC(op, src)`: total, and a function of nothing else (R24, R6). -/
def execFn (op : OpCode) (src : Bus) : Result :=
  match decode op src with
  | .transaction i => resultOf i
  | .reserved _ => reservedResult

/-- A cycle in which no transaction is presented: `v_1 <- in_valid = 0`, `d_1 <- EXEC(op, src)` (R28, R186; log 19). -/
def idleCycle (s : State) : Host.Outcome State Fault Refusal :=
  .next (runCycle ⟨false, execFn s.ports.op s.ports.src⟩ s)

end Sys2Proof.Machine
end

