-- ==== Sys2Proof/Machine/Dispatch.lean ====
section
/-! DEFINITION. One arm per operation (spec/30_encoding.md R53). -/

namespace Sys2Proof.Machine

def exec (i : Instr) (s : State) : Host.Outcome State Fault Refusal :=
  match i with
  | .packRgb9e5 r g b => Sys2Proof.Machine.execPackRgb9e5 r g b s
  | .packRgbe8 r g b => Sys2Proof.Machine.execPackRgbe8 r g b s
  | .unpackRgb9e5 w => Sys2Proof.Machine.execUnpackRgb9e5 w s
  | .unpackRgbe8 t => Sys2Proof.Machine.execUnpackRgbe8 t s
  | .repackE8To9e5 t => Sys2Proof.Machine.execRepackE8To9e5 t s
  | .repack9e5ToE8 w => Sys2Proof.Machine.execRepack9e5ToE8 w s
  | .h2f r g b a => Sys2Proof.Machine.execH2f r g b a s
  | .f2h r g b a => Sys2Proof.Machine.execF2h r g b a s
  | .h16ToRgb9e5 r g b a => Sys2Proof.Machine.execH16ToRgb9e5 r g b a s
  | .h16ToRgbe8 r g b a => Sys2Proof.Machine.execH16ToRgbe8 r g b a s
  | .rgb9e5ToH16 w => Sys2Proof.Machine.execRgb9e5ToH16 w s

end Sys2Proof.Machine
end

