-- ==== Sys2Proof/Machine/Step.lean ====
section
/-! DEFINITION. One step is one clock cycle (spec/10_state.md R27, R28; log 3): the transaction on the input ports, a
reserved code, or an idle cycle. -/

namespace Sys2Proof.Machine

/-- One cycle of the block. -/
def step (s : State) : Host.Outcome State Fault Refusal :=
  match presented s with
  | some (.transaction i) => exec i s
  | some (.reserved c) => takeReserved c s
  | none => idleCycle s

/-- The input ports of a cycle that presents a table word's operation code with an operand of zeros and no reset
(log 10). -/
def State.withFetchWord (s : State) (nbits w : Nat) : State where
  ports := ⟨false, true, tableOp nbits w, 0⟩
  host := s.host
  pipe := s.pipe
  out := s.out
  results := s.results
  draws := s.draws

end Sys2Proof.Machine
end

