-- ==== Sys2Proof/Machine/Layout.lean ====
section
/-! DEFINITION. The byte layouts of the texel types in the host's buffers (spec/20_memory.md R41 to R45), all
little-endian (D21). The block makes no access (R40): these are the host's loads and stores, which copy a texel between
a buffer and the buses; no operation uses them (log 13). -/

namespace Sys2Proof.Machine

/-- A host buffer: its bytes in address order (R47 "flat contiguous buffers"). -/
abbrev Buffer := List Byte

/-- The `n` bytes at byte offset `a`, if the buffer has them all. -/
def readBytes (buf : Buffer) (a n : Nat) : Option (List Byte) :=
  if a + n ≤ buf.length then some ((buf.drop a).take n) else none

/-- The buffer with the bytes `bs` stored from byte offset `a` on, if it has room for them all. -/
def writeBytes (buf : Buffer) (a : Nat) (bs : List Byte) : Option Buffer :=
  if a + bs.length ≤ buf.length then some (buf.take a ++ bs ++ buf.drop (a + bs.length)) else none

/-- A list of bytes as one number, the first byte least significant (R41, D21). -/
def leNat : List Byte → Nat
  | [] => 0
  | x :: xs => x.toNat + 256 * leNat xs

/-- The low `n` bytes of a number, the least significant first (R41, D21). -/
def leBytes : Nat → Nat → List Byte
  | 0, _ => []
  | n + 1, v => BitVec.ofNat 8 v :: leBytes n (v / 256)

/-- An RGB9E5 texel as stored: `w[7:0]` first (R41). -/
def bytesOfRgb9e5 (w : Lane) : List Byte :=
  [w.extractLsb' 0 8, w.extractLsb' 8 8, w.extractLsb' 16 8, w.extractLsb' 24 8]

/-- An RGBE8 texel as stored: r, g, b, e (R42). -/
def bytesOfRgbe8 (t : Rgbe8) : List Byte := [t.r, t.g, t.b, t.e]

/-- An RGBA16F texel as stored: r, g, b, a, each little-endian (R43). -/
def bytesOfRgba16f (r g b a : Half) : List Byte :=
  leBytes 2 r.toNat ++ leBytes 2 g.toNat ++ leBytes 2 b.toNat ++ leBytes 2 a.toNat

/-- A float triple as stored: r, g, b, each little-endian, 12 bytes with no padding (R44). -/
def bytesOfFloatTriple (v : FloatTriple) : List Byte :=
  leBytes 4 v.r.toNat ++ leBytes 4 v.g.toNat ++ leBytes 4 v.b.toNat

/-- A four-channel binary32 input as stored: the triple and then a at offset 12 (R44). -/
def bytesOfFloat4 (r g b a : Lane) : List Byte := bytesOfFloatTriple ⟨r, g, b⟩ ++ leBytes 4 a.toNat

/-- The bus value the host places on `src` for `n` bytes at offset `a`: a little-endian load into the low bits
(R41 to R44). The bits above the texel are 0: DESIGN CHOICE (log 21), since the spec leaves operand bits a format does not
name at any value (93 I6). -/
def loadBus (buf : Buffer) (a n : Nat) : Option Bus :=
  (readBytes buf a n).map fun bs => BitVec.ofNat 128 (leNat bs)

/-- The buffer after the host stores the low `n` bytes of a bus at offset `a`, little-endian (R41 to R44). -/
def storeBus (buf : Buffer) (a n : Nat) (x : Bus) : Option Buffer := writeBytes buf a (leBytes n x.toNat)

end Sys2Proof.Machine
end

