-- ==== Sys2Proof/Machine/Mechanism.lean ====
section
/-! DEFINITION. The source's bit-level mechanisms of the two packs, as spec/40_pack.md R75 and R86 write them, with the
binary32 roundings they speak of. They are no part of a meaning: the exact rules of Machine/Pack.lean are (log 16); the
statements compare the two. -/

namespace Sys2Proof.Machine

/-- The binary32 sum of two non-negative finite patterns, rounded to nearest with ties to even (R75). -/
def f32addPos (x y : Lane) : Lane := f32round (scaledAdd (mag32 x) (mag32 y))

/-- `bias_bits = (mx + 0x07804000) & 0x7F800000` (R75). -/
def biasBits9 (r g b : Lane) : Lane := (BitVec.ofNat 32 (packMax9 r g b) + 0x07804000) &&& 0x7F800000

/-- `s_c`: the sum of a clamped channel and the bias float (R75). -/
def biasedSum9 (r g b x : Lane) : Lane := f32addPos (cl9 x) (biasBits9 r g b)

/-- The word of R75: exponent field and the three sums, shifted and OR-combined in 32 bits. -/
def packWordMechanism9 (r g b : Lane) : Lane :=
  ((((biasBits9 r g b <<< 4) + 0x10000000) >>> 27) <<< 27)
    ||| (biasedSum9 r g b b <<< 18)
    ||| ((biasedSum9 r g b g <<< 9) &&& 0x3FE00)
    ||| (biasedSum9 r g b r &&& 0x1FF)

/-- The bias float's pattern of R86: `(mx + 0x00808000) & 0x7F800000`. -/
def biasBitsE8 (r g b : Lane) : Lane := (BitVec.ofNat 32 (packMaxE8 r g b) + 0x00808000) &&& 0x7F800000

/-- The binary32 quotient of a non-negative finite pattern by the power of two `2^k`, rounded to nearest with ties to
even (R86). -/
def f32divPow (x : Lane) (k : Int) : Lane := f32round (scaledShift (mag32 x) (-k))

/-- The binary32 product of a non-negative finite pattern with `2^k`, rounded to nearest with ties to even (R86). -/
def f32mulPow (x : Lane) (k : Int) : Lane := f32round (scaledShift (mag32 x) k)

/-- `round(clamp(c / B * 256, 0, 255))` with the division and the product in binary32 and `B = 2^(exponent field of
the bias - 127)` (R86); a NaN channel is taken as 0 (R81), and negative values clamp to 0. The clamp at 255 is written
after the rounding: both bounds are integers (R84). -/
def mechanismChannelE8 (bias x : Lane) : Nat :=
  if isNaN32 x || sign32 x then 0
  else if f32mulPow (f32divPow x ((exp32 bias : Int) - 127)) 8 = 0x7F800000 then 255
  else min 255 (rha (mag32 (f32mulPow (f32divPow x ((exp32 bias : Int) - 127)) 8)) 0)

/-- The texel of R86; its exponent byte is `clamp((bits(B) >> 23) + 1, 0, 255)`. -/
def packRgbe8Mechanism (r g b : Lane) : Rgbe8 where
  r := BitVec.ofNat 8 (mechanismChannelE8 (biasBitsE8 r g b) r)
  g := BitVec.ofNat 8 (mechanismChannelE8 (biasBitsE8 r g b) g)
  b := BitVec.ofNat 8 (mechanismChannelE8 (biasBitsE8 r g b) b)
  e := BitVec.ofNat 8 (min 255 ((biasBitsE8 r g b).toNat / 2 ^ 23 + 1))

end Sys2Proof.Machine
end

