-- ==== Sys2Proof/Safety.lean ====
section
/-! DEFINITION. The terms claims use: what a safe run is, what a pipeline owes, which states agree up to unspecified
data, and the rational meaning of the two roundings. -/

namespace Sys2Proof.Safety

open Sys2Proof.Machine

/-- No captured result carries `illegal = 1`: the program presented no reserved code that has come out (93 I5). -/
def noIllegal (s : State) : Bool := s.results.all fun r => !r.illegal

/-- The result is one `EXEC` gives for some code and operand (R24). -/
def isExecResult (r : Result) : Prop := ∃ (op : OpCode) (src : Bus), r = execFn op src

/-- Every valid stage, every captured result and a presented output is a value of `EXEC` (R24, R28): what holds once a
reset edge has occurred since power-up (R193, 93 I4). -/
def Sound (s : State) : Prop :=
  (∀ st ∈ s.pipe, st.valid = true → isExecResult st.result) ∧
  (∀ r ∈ s.results, isExecResult r) ∧
  (s.out.outValid = true → isExecResult ⟨s.out.dst, s.out.illegal⟩)

/-- Every valid stage that carries `illegal = 1` carries `dst = 0`, and so do the captured results and the output (R171). -/
def IllegalIsZero (s : State) : Prop :=
  (∀ st ∈ s.pipe, st.valid = true → st.result.illegal = true → st.result.dst = 0) ∧
  (∀ r ∈ s.results, r.illegal = true → r.dst = 0) ∧
  (s.out.outValid = true → s.out.illegal = true → s.out.dst = 0)

/-- The results still in the pipeline, in the order they were presented: the last stage holds the oldest (R28). -/
def inFlight (pipe : List Stage) : List Result :=
  (pipe.reverse.filter fun st => st.valid).map fun st => st.result

/-- What the host has captured and what the pipeline still owes it (R27, R200). -/
def accepted (s : State) : List Result := s.results ++ inFlight s.pipe

/-- The result of the transaction presented in the current cycle, if one is (R22, R24). -/
def presentedResult (s : State) : List Result :=
  if s.ports.inValid then [execFn s.ports.op s.ports.src] else []

/-- Two stages a user cannot tell apart: both empty, or both holding the same result (R28, R29). -/
def stagesAgree (x y : Stage) : Prop := x.valid = y.valid ∧ (x.valid = true → x.result = y.result)

/-- Two cycles' inputs that may differ only where nothing is presented (R201). -/
def portsAgree (p q : Ports) : Prop :=
  p.rst = q.rst ∧ p.inValid = q.inValid ∧ (p.inValid = true → p.op = q.op ∧ p.src = q.src)

/-- Two driven outputs a host cannot tell apart: `dst` and `illegal` count only while `out_valid = 1` (R29, 93 I2). -/
def outputsAgree (x y : Outputs) : Prop :=
  x.outValid = y.outValid ∧ (x.outValid = true → x.dst = y.dst ∧ x.illegal = y.illegal)

/-- Two states that differ only in unspecified data: the data of empty stages, the operands of cycles in which nothing is
presented, the outputs while `out_valid = 0`, and the free draws (R29, R192, 93 I2 to I4). -/
def AgreeUpToUnspecified (s t : State) : Prop :=
  portsAgree s.ports t.ports ∧ List.Forall₂ portsAgree s.host t.host ∧
  List.Forall₂ stagesAgree s.pipe t.pipe ∧ outputsAgree s.out t.out ∧ s.results = t.results

/-- `m` is `RNE(q)`: nearest, of two equally near the even one (R13). -/
def IsRNE (q : ℚ) (m : ℕ) : Prop := |(m : ℚ) - q| ≤ 1 / 2 ∧ (|(m : ℚ) - q| = 1 / 2 → m % 2 = 0)

/-- `m` is `RHA(q)`: `floor(q + 1/2)` (R13). -/
def IsRHA (q : ℚ) (m : ℕ) : Prop := (m : ℚ) ≤ q + 1 / 2 ∧ q + 1 / 2 < (m : ℚ) + 1

/-- The rational value of a finite binary32 pattern (R11); 0 for NaN and infinities. -/
def val32 (x : Lane) : ℚ := fvalRat (f32val x)

/-- The rational value of a finite binary16 pattern (R11); 0 for NaN and infinities. -/
def val16 (h : Half) : ℚ := fvalRat (f16val h)

/-- The pattern is a binary32 finite value, neither infinity nor NaN (R11). -/
abbrev finite32 (x : Lane) : Prop := exp32 x ≠ 255

/-- The pattern is a binary16 finite value (R11). -/
abbrev finite16 (h : Half) : Prop := exp16 h ≠ 31

/-- The value `m * 2^(E - 24)` of an RGB9E5 channel (R101). -/
def value9 (e : BitVec 5) (m : BitVec 9) : ℚ := (m.toNat : ℚ) * (2 : ℚ) ^ ((e.toNat : Int) - 24)

/-- The value `n * 2^(e - 136)` of an RGBE8 channel (R106). -/
def valueE8 (e n : BitVec 8) : ℚ := (n.toNat : ℚ) * (2 : ℚ) ^ ((e.toNat : Int) - 136)

/-- An RGBE8 texel whose largest mantissa is at least 128 (R15, R123). -/
abbrev normalisedE8 (t : Rgbe8) : Prop := 128 ≤ max t.r.toNat (max t.g.toNat t.b.toNat)

/-- `mx` is the largest of the floor `2^-126` and the patterns that are neither a NaN nor negative (R80, R82). -/
def IsMaxE8 (r g b : Lane) (mx : ℕ) : Prop :=
  0x00800000 ≤ mx ∧
  (∀ x ∈ [r, g, b], isNaN32 x = false → sign32 x = false → x.toNat ≤ mx) ∧
  (mx = 0x00800000 ∨ ∃ x ∈ [r, g, b], isNaN32 x = false ∧ sign32 x = false ∧ x.toNat = mx)

/-- `n` is the RGBE8 mantissa of channel `x` at exponent byte `e` (R81, R84). -/
def ChannelE8 (e : ℕ) (x : Lane) (n : ℕ) : Prop :=
  (isNaN32 x = true → n = 0) ∧
  (isNaN32 x = false → sign32 x = true → n = 0) ∧
  (x = 0x7F800000 → n = 255) ∧
  (finite32 x → sign32 x = false → ∃ k, IsRHA (val32 x * (2 : ℚ) ^ (136 - (e : ℤ))) k ∧ n = min 255 k)

/-- The binary32 pattern is the exact value `v >= 0`: finite, sign clear, of that value (R12). -/
def IsPattern32 (v : ℚ) (x : Lane) : Prop := finite32 x ∧ sign32 x = false ∧ val32 x = v

/-- The binary16 pattern is the exact value `v >= 0`: finite, sign clear, of that value (R12). -/
def IsPattern16 (v : ℚ) (h : Half) : Prop := finite16 h ∧ sign16 h = false ∧ val16 h = v

/-- `x` is what H2F gives for the half `h`: same sign and value; infinities keep their sign; a NaN becomes
`s<<31 | 0x7FC00000 | F<<13` (R141, R142). -/
def Widened (h : Half) (x : Lane) : Prop :=
  (isNaN16 h = true →
    x = ((h >>> 15).setWidth 32 <<< 31) ||| 0x7FC00000 ||| ((h &&& 0x3FF).setWidth 32 <<< 13)) ∧
  (h &&& 0x7FFF = 0x7C00 → x = ((h >>> 15).setWidth 32 <<< 31) ||| 0x7F800000) ∧
  (finite16 h → finite32 x ∧ sign32 x = sign16 h ∧ val32 x = val16 h)

/-- The 15-bit magnitude pattern `n` is `NARROW16(v)` (R145). -/
def Narrowed16 (v : ℚ) (n : ℕ) : Prop :=
  (65520 ≤ v → n = 0x7C00) ∧
  (v < (2 : ℚ) ^ (-14 : ℤ) → IsRNE (v * (2 : ℚ) ^ (24 : ℤ)) n) ∧
  ((2 : ℚ) ^ (-14 : ℤ) ≤ v → v < 65520 →
    ∃ (p : ℤ) (m : ℕ), (2 : ℚ) ^ p ≤ v ∧ v < (2 : ℚ) ^ (p + 1) ∧ IsRNE (v * (2 : ℚ) ^ (10 - p)) m ∧
      (n : ℤ) = (p + 15) * 1024 + ((m : ℤ) - 1024))

/-- `h` is what F2H gives for the pattern `x`: the sign copied and the magnitude narrowed; infinities keep their sign; a
NaN becomes `s<<15 | 0x7E00 | F[22:13]` (R144, R145, R146). -/
def Narrowed (x : Lane) (h : Half) : Prop :=
  (isNaN32 x = true →
    h = ((x >>> 31).setWidth 16 <<< 15) ||| 0x7E00 ||| ((x >>> 13).setWidth 16 &&& 0x3FF)) ∧
  (x &&& 0x7FFFFFFF = 0x7F800000 → h = ((x >>> 31).setWidth 16 <<< 15) ||| 0x7C00) ∧
  (finite32 x → sign16 h = sign32 x ∧ Narrowed16 |val32 x| (h &&& 0x7FFF).toNat)

end Sys2Proof.Safety
end

