-- ==== Sys2Proof/Certificates/Slice0/Obligations.lean ====
section
/-! DEFINITION. The statements for the provers, from the numbered rules of spec/. A statement about an operation's
result is its completion statement: `exec` answers the next state in which that result is presented, in every state. -/

open Sys2Proof Sys2Proof.Machine Sys2Proof.Safety

/-! ## Encoding and decoding -/

/-- Each of the sixteen operation codes selects one row of R53, with the operand fields of the row's format (R51). -/
def Obligations.OpcodeMapRows : Prop :=
  ∀ src : Bus,
    decode 0x0 src = .transaction (.packRgb9e5 (lane src 0) (lane src 1) (lane src 2)) ∧
    decode 0x1 src = .transaction (.packRgbe8 (lane src 0) (lane src 1) (lane src 2)) ∧
    decode 0x2 src = .transaction (.unpackRgb9e5 (rgb9e5OfWord (lane src 0))) ∧
    decode 0x3 src = .transaction (.unpackRgbe8 (rgbe8OfLane (lane src 0))) ∧
    decode 0x4 src = .transaction (.repackE8To9e5 (rgbe8OfLane (lane src 0))) ∧
    decode 0x5 src = .transaction (.repack9e5ToE8 (rgb9e5OfWord (lane src 0))) ∧
    decode 0x6 src = .transaction (.h2f (half src 0) (half src 1) (half src 2) (half src 3)) ∧
    decode 0x7 src = .transaction (.f2h (lane src 0) (lane src 1) (lane src 2) (lane src 3)) ∧
    decode 0x8 src = .transaction (.h16ToRgb9e5 (half src 0) (half src 1) (half src 2) (half src 3)) ∧
    decode 0x9 src = .transaction (.h16ToRgbe8 (half src 0) (half src 1) (half src 2) (half src 3)) ∧
    decode 0xA src = .transaction (.rgb9e5ToH16 (rgb9e5OfWord (lane src 0)))

/-- Every transaction, with every operand value, comes back from its encoding. -/
def Obligations.DecodeEncodeRoundTrip : Prop :=
  ∀ i : Instr, wellFormed i = true → decode (encode i).1 (encode i).2 = .transaction i

/-- Every code and operand that decode to a transaction are its encoding, up to the bits its format ignores (R51). That the
encoding has 0 in those bits is the model's encoder (DESIGN CHOICE, log 14, after the notation of R58). -/
def Obligations.EncodeDecodeNamedBits : Prop :=
  ∀ (op : OpCode) (src : Bus) (i : Instr),
    decode op src = .transaction i → encode i = (op, src &&& namedBits op)

/-- The five codes 0xB to 0xF, and no others, are reserved, and each gives `dst = 0` and `illegal = 1` (R54). -/
def Obligations.ReservedCodesAreExactlyFive : Prop :=
  ∀ (op : OpCode) (src : Bus),
    ((∃ c, decode op src = .reserved c) ↔ (op = 0xB ∨ op = 0xC ∨ op = 0xD ∨ op = 0xE ∨ op = 0xF)) ∧
    ((op = 0xB ∨ op = 0xC ∨ op = 0xD ∨ op = 0xE ∨ op = 0xF) → execFn op src = ⟨0, true⟩)

/-- Operand bits the format of an operation does not name affect no result (R51, 93 I6). -/
def Obligations.IgnoredOperandBitsDoNotMatter : Prop :=
  ∀ (op : OpCode) (src src' : Bus),
    src &&& namedBits op = src' &&& namedBits op → execFn op src = execFn op src'

/-- The worked example of each operation rule (R70, R80, R100, R105, R120, R126, R140, R144, R150, R152, R154). -/
def Obligations.WorkedExamples : Prop :=
  execFn 0x0 0x00000000_3E800000_3F000000_3F800000 = ⟨0x81010100, false⟩ ∧
  execFn 0x1 0x00000000_3E800000_3F000000_3F800000 = ⟨0x81204080, false⟩ ∧
  execFn 0x2 0x81010100 = ⟨0x00000000_3E800000_3F000000_3F800000, false⟩ ∧
  execFn 0x3 0x81204080 = ⟨0x00000000_3E800000_3F000000_3F800000, false⟩ ∧
  execFn 0x4 0x81204080 = ⟨0x81010100, false⟩ ∧
  execFn 0x5 0x81010100 = ⟨0x81204080, false⟩ ∧
  execFn 0x6 0x3C00_3400_3800_3C00 = ⟨0x3F800000_3E800000_3F000000_3F800000, false⟩ ∧
  execFn 0x7 0x3F800000_3E800000_3F000000_3F800000 = ⟨0x3C00_3400_3800_3C00, false⟩ ∧
  execFn 0x8 0x1234_3400_3800_3C00 = ⟨0x81010100, false⟩ ∧
  execFn 0x9 0x1234_3400_3800_3C00 = ⟨0x81204080, false⟩ ∧
  execFn 0xA 0x81010100 = ⟨0x3C00_3400_3800_3C00, false⟩

/-! ## The step, the pipeline and reset -/

/-- A step with a transaction on the ports is `exec` of it at the same state; `exec` is the whole cycle, so the step adds
nothing around it (R22, R27). -/
def Obligations.StepRunsPresentedTransaction : Prop :=
  ∀ (s : State) (i : Instr),
    s.ports.inValid = true → decode s.ports.op s.ports.src = .transaction i → step s = exec i s

/-- No operation and no operand raises anything: every operation answers a next state that presents a result with
`illegal = 0`, and every step answers a next state (R170). -/
def Obligations.EveryOperationCompletes : Prop :=
  (∀ (i : Instr) (s : State), ∃ dst : Bus, exec i s = .next (present ⟨dst, false⟩ s)) ∧
  ∀ s : State, ∃ t : State, step s = .next t

/-- A reserved code presents `dst = 0` with `illegal = 1` exactly as an operation's result is presented, whatever the
operand; it is the only case of `illegal = 1` (R171). -/
def Obligations.ReservedCodeIsPresented : Prop :=
  (∀ s : State, s.ports.inValid = true → 11 ≤ s.ports.op.toNat → step s = .next (present ⟨0, true⟩ s)) ∧
  ∀ (op : OpCode) (src : Bus), (execFn op src).illegal = true ↔ 11 ≤ op.toNat

/-- With `P_LATENCY = 0` the result of a transaction is driven and captured in its own cycle, an idle cycle drives
`out_valid = 0` and captures nothing, and `rst`, which is absent, changes neither (R27, R23). -/
def Obligations.CombinationalCycle : Prop :=
  ∀ s : State, s.pipe = [] → ∃ t : State, step s = .next t ∧ t.pipe = [] ∧
    (s.ports.inValid = true →
      t.out = ⟨true, (execFn s.ports.op s.ports.src).dst, (execFn s.ports.op s.ports.src).illegal⟩ ∧
      t.results = s.results ++ [execFn s.ports.op s.ports.src]) ∧
    (s.ports.inValid = false → t.out.outValid = false ∧ t.results = s.results)

/-- At an edge with `rst = 0` stage 1 takes `in_valid` and `EXEC(op, src)` and every other stage its predecessor; during
the cycle the last stage drives the outputs, and its result is captured while it is valid (R28, R27). -/
def Obligations.PipelineAdvances : Prop :=
  ∀ s : State, s.pipe ≠ [] → s.ports.rst = false → ∃ t : State, step s = .next t ∧
    t.pipe.length = s.pipe.length ∧
    t.pipe[0]? = some ⟨s.ports.inValid, execFn s.ports.op s.ports.src⟩ ∧
    (∀ j, 1 ≤ j → j < s.pipe.length → t.pipe[j]? = s.pipe[j - 1]?) ∧
    (∀ d : Stage, s.pipe.getLast? = some d →
      t.out.outValid = d.valid ∧
      (d.valid = true → t.out = ⟨true, d.result.dst, d.result.illegal⟩ ∧ t.results = s.results ++ [d.result]) ∧
      (d.valid = false → t.results = s.results))

/-- A reset edge clears every valid bit, whatever the state before it (power-up included), keeps the number of stages,
and discards the transaction presented in its cycle and all in flight, while the result presented in its cycle is still
presented (R29, R190, R191, R176). -/
def Obligations.ResetEdgeDiscardsInFlight : Prop :=
  ∀ s : State, s.pipe ≠ [] → s.ports.rst = true → ∃ t : State, step s = .next t ∧
    t.pipe.length = s.pipe.length ∧
    (∀ st ∈ t.pipe, st.valid = false) ∧
    accepted t = t.results ∧
    (∀ d : Stage, s.pipe.getLast? = some d →
      (d.valid = true → t.out = ⟨true, d.result.dst, d.result.illegal⟩ ∧ t.results = s.results ++ [d.result]) ∧
      (d.valid = false → t.out.outValid = false ∧ t.results = s.results))

/-- From a state with an empty pipeline (a reset edge leaves one) `out_valid = 0` in the next `P_LATENCY` cycles, whatever
the host does in them (R194). -/
def Obligations.QuietAfterReset : Prop :=
  ∀ s : State, (∀ st ∈ s.pipe, st.valid = false) →
    ∀ k, 1 ≤ k → k ≤ s.pipe.length → ∃ t : State, Host.Core.run core k s = .next t ∧ t.out.outValid = false

/-- A transaction's result is driven, and captured last, in the cycle `P_LATENCY` after the one it was presented in, if no
reset edge comes before (R27). The premise names the queued cycles: where the queue is shorter than `P_LATENCY`, that no
reset comes before rests on the model's idle host driving `rst = 0` (DESIGN CHOICE, log 2). The captured list is the
model's (log 11). -/
def Obligations.ResultAppearsAfterLatency : Prop :=
  ∀ s : State, s.ports.inValid = true →
    (∀ p ∈ (s.ports :: s.host).take s.pipe.length, p.rst = false) →
    ∃ t : State, Host.Core.run core (s.pipe.length + 1) s = .next t ∧
      t.out = ⟨true, (execFn s.ports.op s.ports.src).dst, (execFn s.ports.op s.ports.src).illegal⟩ ∧
      t.results.getLast? = some (execFn s.ports.op s.ports.src)

/-- One cycle without a reset edge keeps every result captured or in flight, in order, and adds the result of the
transaction presented, if one is: nothing is lost, repeated or reordered (R27, R195). The captured list is the model's (log 11). -/
def Obligations.CycleKeepsResultsInOrder : Prop :=
  ∀ s : State, (s.pipe ≠ [] → s.ports.rst = false) →
    ∃ t : State, step s = .next t ∧ accepted t = accepted s ++ presentedResult s

/-- Over any number of cycles without a reset edge the pipelined block computes the list of `EXEC` of the transactions
presented, in the order presented, whatever its latency (R199, R200, R24). For `k` beyond the queue it rests on the model's
idle host presenting nothing and driving `rst = 0` (DESIGN CHOICE, log 2). The captured list is the model's (log 11). -/
def Obligations.RunRefinesExecMap : Prop :=
  ∀ (s : State) (k : ℕ), (s.pipe ≠ [] → ∀ p ∈ (s.ports :: s.host).take k, p.rst = false) →
    ∃ t : State, Host.Core.run core k s = .next t ∧
      accepted t = accepted s ++
        (((s.ports :: s.host).take k).filter fun p => p.inValid).map fun p => execFn p.op p.src

/-- Unspecified data never reach a host: states that differ only in the data of empty stages, in the operands of cycles in
which nothing is presented, in the outputs while `out_valid = 0` and in the free draws step to states that differ only
there, and so capture the same results (R29, R192, 93 I2 to I4). -/
def Obligations.UnspecifiedDataAreNeverObserved : Prop :=
  ∀ s t : State, AgreeUpToUnspecified s t →
    ∃ s' t' : State, step s = .next s' ∧ step t = .next t' ∧ AgreeUpToUnspecified s' t'

/-- Only values of `EXEC` are in a valid stage, captured or presented: every step keeps it (R24, R28). -/
def Obligations.StepKeepsSound : Prop :=
  ∀ s t : State, Sound s → step s = .next t → Sound t

/-- `State.reset`, and the state after reset of every latency, has that invariant. It reads that nothing is captured there,
the model's choice (DESIGN CHOICE, log 7, log 11). -/
def Obligations.ResetIsSound : Prop := Sound State.reset ∧ ∀ L : ℕ, Sound (State.resetAt L)

/-- Wherever `illegal = 1` is held, captured or presented, `dst = 0`: every step keeps it, and reset has it (R171). The
clause on reset reads that nothing is captured there, the model's choice (DESIGN CHOICE, log 7, log 11). -/
def Obligations.StepKeepsIllegalIsZero : Prop :=
  (∀ s t : State, IllegalIsZero s → step s = .next t → IllegalIsZero t) ∧
  ∀ L : ℕ, IllegalIsZero (State.resetAt L)

/-- No step changes `P_LATENCY` (R7, R27). -/
def Obligations.LatencyIsFixed : Prop :=
  ∀ s t : State, step s = .next t → t.latency = s.latency

/-- Right after reset the pipeline has `P_LATENCY` stages and every valid bit is 0, so `out_valid` is 0; the default latency
is 0 (R190, R7). That nothing is captured yet is the model's choice (DESIGN CHOICE, log 7, log 11). -/
def Obligations.ResetState : Prop :=
  State.reset.latency = 0 ∧
  ∀ L : ℕ, (State.resetAt L).latency = L ∧ (∀ st ∈ (State.resetAt L).pipe, st.valid = false) ∧
    (State.resetAt L).out.outValid = false ∧ accepted (State.resetAt L) = []

/-- After a reset edge from ANY state, power-up included, every result captured later is a value of `EXEC`: one reset edge
makes the power-up values irrelevant (R192, R193). The captured list is the model's (log 11). -/
def Obligations.ResetMakesPowerUpIrrelevant : Prop :=
  ∀ s t : State, s.pipe ≠ [] → s.ports.rst = true → step s = .next t →
    ∀ (k : ℕ) (u : State), Host.Core.run core k t = .next u →
      ∃ later : List Result, u.results = t.results ++ later ∧ ∀ r ∈ later, isExecResult r

/-- What an operation leaves alone, in every state: the results captured before it, the queue of the host's later inputs but
for its head, the number of stages, and, without a reset edge, every stage but the last, which move on unchanged. The next
input is the head of the queue, or, where it is empty, an idle cycle (DESIGN CHOICE, log 2). -/
def Obligations.OperationFrame : Prop :=
  ∀ (i : Instr) (s : State), ∃ t : State, exec i s = .next t ∧
    (t.results = s.results ∨ ∃ r, t.results = s.results ++ [r]) ∧
    t.host = s.host.tail ∧
    (∀ p ps, s.host = p :: ps → t.ports = p) ∧
    (s.host = [] → t.ports.inValid = false ∧ t.ports.rst = false) ∧
    t.pipe.length = s.pipe.length ∧
    (s.ports.rst = false → t.pipe.tail = s.pipe.dropLast)

/-- In a pipelined block two different transactions presented in the same state leave everything the same but stage 1: no
transaction can see, disturb or delay another (R195). The count of free draws is the model's (log 4). -/
def Obligations.TransactionsDoNotDisturbOthers : Prop :=
  ∀ (i j : Instr) (s : State), s.pipe ≠ [] →
    ∃ t u : State, exec i s = .next t ∧ exec j s = .next u ∧
      t.out = u.out ∧ t.results = u.results ∧ t.ports = u.ports ∧ t.host = u.host ∧ t.draws = u.draws ∧
      t.pipe.tail = u.pipe.tail

/-! ## Rounding and floating-point patterns -/

/-- The model's two roundings are those of R13. -/
def Obligations.RoundingsAreRneAndRha : Prop :=
  ∀ (q : Scaled) (k : ℤ),
    IsRNE (scaledVal q * (2 : ℚ) ^ k) (rne q k) ∧ IsRHA (scaledVal q * (2 : ℚ) ^ k) (rha q k)

/-- Non-negative binary32 patterns order as unsigned integers, infinity above every finite one, and `f32bits` gives back the
pattern of a finite non-negative value, `0x00000000` for 0 (R12). -/
def Obligations.PatternOrderIsValueOrder : Prop :=
  (∀ a b : Lane, finite32 a → finite32 b → sign32 a = false → sign32 b = false →
    (val32 a < val32 b ↔ a.toNat < b.toNat)) ∧
  (∀ a : Lane, finite32 a → sign32 a = false → a.toNat < 0x7F800000) ∧
  (∀ a : Lane, finite32 a → sign32 a = false → f32bits (mag32 a) = a) ∧
  ∀ e : ℤ, f32bits ⟨0, e⟩ = 0x00000000

/-! ## PACK_RGB9E5 -/

/-- The channel clamp (R71). -/
def Obligations.ChannelClamp : Prop :=
  ∀ x : Lane,
    (isNaN32 x = true → cl9 x = 0x00000000) ∧
    (isNaN32 x = false → sign32 x = true → cl9 x = 0x00000000) ∧
    (isNaN32 x = false → sign32 x = false → 0x477F8000 < x.toNat → cl9 x = 0x477F8000) ∧
    (isNaN32 x = false → sign32 x = false → x.toNat ≤ 0x477F8000 → cl9 x = x) ∧
    sign32 (cl9 x) = false ∧ finite32 (cl9 x) ∧ 0 ≤ val32 (cl9 x) ∧ val32 (cl9 x) ≤ 65408 ∧
    (finite32 x → val32 (cl9 x) = min (max (val32 x) 0) 65408)

/-- PACK_RGB9E5 presents `{E, mB, mG, mR}` with zeros above, where `E` is the rounded exponent of the largest clamped channel
or of the floor, and each mantissa is the clamped channel in units of `2^(E-24)`, nearest with ties to even (R72 to R74). -/
def Obligations.PackRgb9e5Result : Prop :=
  ∀ (r g b : Lane) (s : State), ∃ E mR mG mB : ℕ,
    exec (.packRgb9e5 r g b) s =
      .next (present ⟨0#96 ++ (BitVec.ofNat 5 E ++ BitVec.ofNat 9 mB ++ BitVec.ofNat 9 mG ++ BitVec.ofNat 9 mR), false⟩ s) ∧
    E + 111 = (max (max (cl9 r).toNat (cl9 g).toNat) (max (cl9 b).toNat 0x37800000) + 0x4000) / 2 ^ 23 ∧
    E ≤ 31 ∧ mR ≤ 511 ∧ mG ≤ 511 ∧ mB ≤ 511 ∧
    IsRNE (val32 (cl9 r) * (2 : ℚ) ^ (24 - (E : ℤ))) mR ∧
    IsRNE (val32 (cl9 g) * (2 : ℚ) ^ (24 - (E : ℤ))) mG ∧
    IsRNE (val32 (cl9 b) * (2 : ℚ) ^ (24 - (E : ℤ))) mB

/-- The ranges of R76: nothing wraps; a largest clamped channel of at least `2^-16` has a mantissa of at least 256; below
`2^-16` the exponent is 0 and every mantissa is `RNE(v * 2^24)`, at most 256. -/
def Obligations.PackRgb9e5Ranges : Prop :=
  ∀ r g b : Lane,
    packExp9 r g b ≤ 31 ∧ (∀ x ∈ [r, g, b], packMantissa9 (packExp9 r g b) x ≤ 511) ∧
    (∀ p ∈ [(r, (packRgb9e5 r g b).r), (g, (packRgb9e5 r g b).g), (b, (packRgb9e5 r g b).b)],
      (∀ y ∈ [r, g, b], (cl9 y).toNat ≤ (cl9 p.1).toNat) → 0x37800000 ≤ (cl9 p.1).toNat →
      256 ≤ p.2.toNat ∧ p.2.toNat ≤ 511) ∧
    ((∀ y ∈ [r, g, b], (cl9 y).toNat < 0x37800000) →
      (packRgb9e5 r g b).e = 0 ∧
      ∀ p ∈ [(r, (packRgb9e5 r g b).r), (g, (packRgb9e5 r g b).g), (b, (packRgb9e5 r g b).b)],
        IsRNE (val32 (cl9 p.1) * (2 : ℚ) ^ (24 : ℤ)) p.2.toNat ∧ p.2.toNat ≤ 256)

/-- Unpacking what PACK_RGB9E5 gives returns each clamped channel to within half a unit of the mantissa at the shared
exponent (R78, C4). -/
def Obligations.Rgb9e5RoundTripBound : Prop :=
  ∀ r g b : Lane,
    ∀ p ∈ [(r, (packRgb9e5 r g b).r, (unpackRgb9e5 (packRgb9e5 r g b)).r),
        (g, (packRgb9e5 r g b).g, (unpackRgb9e5 (packRgb9e5 r g b)).g),
        (b, (packRgb9e5 r g b).b, (unpackRgb9e5 (packRgb9e5 r g b)).b)],
      val32 p.2.2 = value9 (packRgb9e5 r g b).e p.2.1 ∧
      |val32 p.2.2 - val32 (cl9 p.1)| ≤ (2 : ℚ) ^ (((packRgb9e5 r g b).e.toNat : ℤ) - 25)

/-- The bit-level mechanism of R75 computes the same word as the exact rules for every input. Its constants are this spec's
reconstruction of the source's mechanism, not the source's (N3, log 16). -/
def Obligations.Rgb9e5MechanismComputesTheWord : Prop :=
  ∀ r g b : Lane, packWordMechanism9 r g b = rgb9e5ToWord (packRgb9e5 r g b)

/-- A NaN or negative channel packs exactly as zero does, in both packs (R71, R77, R81, R88). -/
def Obligations.NonPositiveChannelsPackAsZero : Prop :=
  ∀ x y z : Lane, (isNaN32 x || sign32 x) = true →
    packRgb9e5 x y z = packRgb9e5 0 y z ∧ packRgb9e5 y x z = packRgb9e5 y 0 z ∧ packRgb9e5 y z x = packRgb9e5 y z 0 ∧
    packRgbe8 x y z = packRgbe8 0 y z ∧ packRgbe8 y x z = packRgbe8 y 0 z ∧ packRgbe8 y z x = packRgbe8 y z 0

/-- Packing an unpacked RGB9E5 word gives a word of the same channel values. -/
def Obligations.PackOfUnpackKeepsValues : Prop :=
  ∀ w : Rgb9e5, unpackRgb9e5 (packTriple9 (unpackRgb9e5 w)) = unpackRgb9e5 w

/-! ## PACK_RGBE8 -/

/-- PACK_RGBE8 presents `{e, nB, nG, nR}` with zeros above, with the exponent of R83 from the maximum of R82, and each
channel as R84 gives it. -/
def Obligations.PackRgbe8Result : Prop :=
  ∀ (r g b : Lane) (s : State), ∃ mx e nR nG nB : ℕ,
    exec (.packRgbe8 r g b) s =
      .next (present ⟨0#96 ++ (BitVec.ofNat 8 e ++ BitVec.ofNat 8 nB ++ BitVec.ofNat 8 nG ++ BitVec.ofNat 8 nR), false⟩ s) ∧
    IsMaxE8 r g b mx ∧ e = min ((mx + 0x8000) / 2 ^ 23 + 2) 255 ∧ 3 ≤ e ∧
    ChannelE8 e r nR ∧ ChannelE8 e g nG ∧ ChannelE8 e b nB

/-- The normalisation of R87: where the exponent does not saturate, the largest channel, if at least `2^-126`, has a mantissa
in `[128, 255]` and no clamp acts; below `2^-126`, `e = 3` and every mantissa is at most 128. -/
def Obligations.PackRgbe8Normalises : Prop :=
  ∀ r g b : Lane,
    (packErE8 r g b ≤ 253 →
      ∀ p ∈ [(r, (packRgbe8 r g b).r), (g, (packRgbe8 r g b).g), (b, (packRgbe8 r g b).b)],
        isNaN32 p.1 = false → sign32 p.1 = false →
        rha (mag32 p.1) (136 - (packExpE8 r g b : ℤ)) ≤ 255 ∧
        ((∀ y ∈ [r, g, b], packKeyE8 y ≤ p.1.toNat) → 0x00800000 ≤ p.1.toNat →
          128 ≤ p.2.toNat ∧ p.2.toNat ≤ 255)) ∧
    ((∀ y ∈ [r, g, b], packKeyE8 y < 0x00800000) →
      (packRgbe8 r g b).e = 3 ∧
      ∀ p ∈ [(r, (packRgbe8 r g b).r), (g, (packRgbe8 r g b).g), (b, (packRgbe8 r g b).b)],
        p.2.toNat ≤ 128 ∧
        (isNaN32 p.1 = false → sign32 p.1 = false → IsRHA (val32 p.1 * (2 : ℚ) ^ (133 : ℤ)) p.2.toNat))

/-- Where the exponent does not saturate, every finite non-negative channel is returned to within half a unit of the
mantissa at the shared exponent (R89). -/
def Obligations.Rgbe8RoundTripBound : Prop :=
  ∀ r g b : Lane, packErE8 r g b ≤ 253 →
    ∀ p ∈ [(r, (unpackRgbe8 (packRgbe8 r g b)).r), (g, (unpackRgbe8 (packRgbe8 r g b)).g),
        (b, (unpackRgbe8 (packRgbe8 r g b)).b)],
      finite32 p.1 → sign32 p.1 = false →
      |val32 p.2 - val32 p.1| ≤ (2 : ℚ) ^ (((packRgbe8 r g b).e.toNat : ℤ) - 137)

/-- The binary32 formulation of R86 computes the same texel whenever `Er <= 253`. That its division and product round to
nearest with ties to even is the model's reading (DEDUCED, log 16). -/
def Obligations.Rgbe8MechanismComputesTheTexel : Prop :=
  ∀ r g b : Lane, packErE8 r g b ≤ 253 → packRgbe8Mechanism r g b = packRgbe8 r g b

/-! ## Unpacks -/

/-- UNPACK_RGB9E5 presents the three patterns of `m * 2^(E-24)`, lane 3 zero; each is `+0` or normal (R101, R102). -/
def Obligations.UnpackRgb9e5Result : Prop :=
  ∀ (w : Rgb9e5) (s : State), ∃ x y z : Lane,
    exec (.unpackRgb9e5 w) s = .next (present ⟨0#32 ++ z ++ y ++ x, false⟩ s) ∧
    IsPattern32 ((w.r.toNat : ℚ) * (2 : ℚ) ^ ((w.e.toNat : ℤ) - 24)) x ∧
    IsPattern32 ((w.g.toNat : ℚ) * (2 : ℚ) ^ ((w.e.toNat : ℤ) - 24)) y ∧
    IsPattern32 ((w.b.toNat : ℚ) * (2 : ℚ) ^ ((w.e.toNat : ℤ) - 24)) z ∧
    ∀ v ∈ [x, y, z], v = 0 ∨ exp32 v ≠ 0

/-- UNPACK_RGBE8 presents the three patterns of `n * 2^(e-136)`, lane 3 zero, for every exponent byte, 0 included (R106,
R107). -/
def Obligations.UnpackRgbe8Result : Prop :=
  ∀ (t : Rgbe8) (s : State), ∃ x y z : Lane,
    exec (.unpackRgbe8 t) s = .next (present ⟨0#32 ++ z ++ y ++ x, false⟩ s) ∧
    IsPattern32 ((t.r.toNat : ℚ) * (2 : ℚ) ^ ((t.e.toNat : ℤ) - 136)) x ∧
    IsPattern32 ((t.g.toNat : ℚ) * (2 : ℚ) ^ ((t.e.toNat : ℤ) - 136)) y ∧
    IsPattern32 ((t.b.toNat : ℚ) * (2 : ℚ) ^ ((t.e.toNat : ℤ) - 136)) z

/-! ## Repacks -/

/-- The fast path: `E5 = e - 113` and doubled mantissas, for every texel with `113 <= e <= 143` (R121). -/
def Obligations.RepackFastPathResult : Prop :=
  ∀ (t : Rgbe8) (s : State), 113 ≤ t.e.toNat → t.e.toNat ≤ 143 →
    exec (.repackE8To9e5 t) s =
      .next (present ⟨0#96 ++ (BitVec.ofNat 5 (t.e.toNat - 113) ++ BitVec.ofNat 9 (2 * t.b.toNat) ++
        BitVec.ofNat 9 (2 * t.g.toNat) ++ BitVec.ofNat 9 (2 * t.r.toNat)), false⟩ s)

/-- The fallback: outside that range the result is that of PACK_RGB9E5 of the unpacked texel; for `e <= 112` the exponent is
0 and each mantissa `RNE(n * 2^(e-112))`, at `e = 144` no channel clamps, and for `e >= 145` any byte of at least 128 clamps
to 65408 (R122). -/
def Obligations.RepackFallbackResult : Prop :=
  ∀ (t : Rgbe8) (s : State), t.e.toNat < 113 ∨ 143 < t.e.toNat →
    ∃ (x y z : Lane) (w : Rgb9e5),
      exec (.repackE8To9e5 t) s = .next (present ⟨0#96 ++ (w.e ++ w.b ++ w.g ++ w.r), false⟩ s) ∧
      exec (.packRgb9e5 x y z) s = .next (present ⟨0#96 ++ (w.e ++ w.b ++ w.g ++ w.r), false⟩ s) ∧
      IsPattern32 (valueE8 t.e t.r) x ∧ IsPattern32 (valueE8 t.e t.g) y ∧ IsPattern32 (valueE8 t.e t.b) z ∧
      (t.e.toNat ≤ 112 → w.e = 0 ∧
        IsRNE ((t.r.toNat : ℚ) * (2 : ℚ) ^ ((t.e.toNat : ℤ) - 112)) w.r.toNat ∧
        IsRNE ((t.g.toNat : ℚ) * (2 : ℚ) ^ ((t.e.toNat : ℤ) - 112)) w.g.toNat ∧
        IsRNE ((t.b.toNat : ℚ) * (2 : ℚ) ^ ((t.e.toNat : ℤ) - 112)) w.b.toNat) ∧
      (t.e.toNat = 144 → cl9 x = x ∧ cl9 y = y ∧ cl9 z = z) ∧
      (145 ≤ t.e.toNat →
        (128 ≤ t.r.toNat → cl9 x = 0x477F8000) ∧ (128 ≤ t.g.toNat → cl9 y = 0x477F8000) ∧
        (128 ≤ t.b.toNat → cl9 z = 0x477F8000))

/-- The fast path keeps every channel's value exactly (R123 (a)). -/
def Obligations.RepackFastPathKeepsValues : Prop :=
  ∀ t : Rgbe8, 113 ≤ t.e.toNat → t.e.toNat ≤ 143 → unpackRgb9e5 (repackE8To9e5 t) = unpackRgbe8 t

/-- The fast path gives the very word PACK_RGB9E5 gives exactly for normalised texels and for `e = 113`; every texel
PACK_RGBE8 produces in the range is normalised (R123 (b), (c), C2). -/
def Obligations.RepackFastPathBitEquality : Prop :=
  (∀ t : Rgbe8, 113 ≤ t.e.toNat → t.e.toNat ≤ 143 →
    (repackE8To9e5 t = packTriple9 (unpackRgbe8 t) ↔ (normalisedE8 t ∨ t.e.toNat = 113))) ∧
  ∀ r g b : Lane, 113 ≤ (packRgbe8 r g b).e.toNat → (packRgbe8 r g b).e.toNat ≤ 143 →
    normalisedE8 (packRgbe8 r g b)

/-- REPACK_9E5_E8 presents PACK_RGBE8 of the exact channel values; the exponent byte is in `[3, 145]` and no mantissa is
clamped; words with zero mantissas give `(0, 0, 0, 3)` (R126, R127). -/
def Obligations.Repack9e5ToE8Result : Prop :=
  ∀ (w : Rgb9e5) (s : State), ∃ (x y z : Lane) (mx e nR nG nB : ℕ),
    exec (.repack9e5ToE8 w) s =
      .next (present ⟨0#96 ++ (BitVec.ofNat 8 e ++ BitVec.ofNat 8 nB ++ BitVec.ofNat 8 nG ++ BitVec.ofNat 8 nR), false⟩ s) ∧
    IsPattern32 (value9 w.e w.r) x ∧ IsPattern32 (value9 w.e w.g) y ∧ IsPattern32 (value9 w.e w.b) z ∧
    IsMaxE8 x y z mx ∧ e = (mx + 0x8000) / 2 ^ 23 + 2 ∧ 3 ≤ e ∧ e ≤ 145 ∧
    nR ≤ 255 ∧ nG ≤ 255 ∧ nB ≤ 255 ∧
    IsRHA (value9 w.e w.r * (2 : ℚ) ^ (136 - (e : ℤ))) nR ∧
    IsRHA (value9 w.e w.g * (2 : ℚ) ^ (136 - (e : ℤ))) nG ∧
    IsRHA (value9 w.e w.b * (2 : ℚ) ^ (136 - (e : ℤ))) nB ∧
    (w.r = 0 → w.g = 0 → w.b = 0 → e = 3 ∧ nR = 0 ∧ nG = 0 ∧ nB = 0)

/-! ## Half conversions -/

/-- H2F presents the four widened halves: same sign and value, infinities and NaNs as R141 and R142 say (R140). -/
def Obligations.H2fResult : Prop :=
  ∀ (r g b a : Half) (s : State), ∃ x y z v : Lane,
    exec (.h2f r g b a) s = .next (present ⟨v ++ z ++ y ++ x, false⟩ s) ∧
    Widened r x ∧ Widened g y ∧ Widened b z ∧ Widened a v

/-- F2H presents the four narrowed floats with zeros above (R144, R145, R146). -/
def Obligations.F2hResult : Prop :=
  ∀ (r g b a : Lane) (s : State), ∃ x y z v : Half,
    exec (.f2h r g b a) s = .next (present ⟨0#64 ++ v ++ z ++ y ++ x, false⟩ s) ∧
    Narrowed r x ∧ Narrowed g y ∧ Narrowed b z ∧ Narrowed a v

/-- Below the overflow bound F2H gives a nearest binary16 value, and of two equally near ones the one with the even
significand (R145). -/
def Obligations.F2hIsNearest : Prop :=
  ∀ x : Lane, finite32 x → |val32 x| < 65520 →
    finite16 (narrow x) ∧
    ∀ h : Half, finite16 h →
      |val16 (narrow x) - val32 x| ≤ |val16 h - val32 x| ∧
      (|val16 (narrow x) - val32 x| = |val16 h - val32 x| → val16 h ≠ val16 (narrow x) →
        (narrow x).toNat % 2 = 0)

/-- H2F then F2H is the identity on every half that is no NaN, and sets fraction bit 9 of a NaN; F2H then H2F is not the
identity (R148). -/
def Obligations.HalfRoundTrip : Prop :=
  (∀ h : Half, isNaN16 h = false → narrow (widen h) = h) ∧
  (∀ h : Half, isNaN16 h = true → narrow (widen h) = h ||| 0x0200) ∧
  ∃ x : Lane, widen (narrow x) ≠ x

/-- H16_TO_RGB9E5 presents PACK_RGB9E5 of the widened r, g and b, whatever alpha is (R150). -/
def Obligations.H16ToRgb9e5Result : Prop :=
  ∀ (r g b a : Half) (s : State), ∃ (x y z : Lane) (w : Rgb9e5),
    exec (.h16ToRgb9e5 r g b a) s = .next (present ⟨0#96 ++ (w.e ++ w.b ++ w.g ++ w.r), false⟩ s) ∧
    exec (.packRgb9e5 x y z) s = .next (present ⟨0#96 ++ (w.e ++ w.b ++ w.g ++ w.r), false⟩ s) ∧
    Widened r x ∧ Widened g y ∧ Widened b z ∧
    ∀ a' : Half, exec (.h16ToRgb9e5 r g b a') s = exec (.h16ToRgb9e5 r g b a) s

/-- H16_TO_RGBE8 presents PACK_RGBE8 of the widened r, g and b, whatever alpha is; the exponent byte of finite inputs is in
`[3, 145]` (R152, R153). -/
def Obligations.H16ToRgbe8Result : Prop :=
  ∀ (r g b a : Half) (s : State), ∃ (x y z : Lane) (t : Rgbe8),
    exec (.h16ToRgbe8 r g b a) s = .next (present ⟨0#96 ++ (t.e ++ t.b ++ t.g ++ t.r), false⟩ s) ∧
    exec (.packRgbe8 x y z) s = .next (present ⟨0#96 ++ (t.e ++ t.b ++ t.g ++ t.r), false⟩ s) ∧
    Widened r x ∧ Widened g y ∧ Widened b z ∧
    (finite16 r → finite16 g → finite16 b → 3 ≤ t.e.toNat ∧ t.e.toNat ≤ 145) ∧
    ∀ a' : Half, exec (.h16ToRgbe8 r g b a') s = exec (.h16ToRgbe8 r g b a) s

/-- RGB9E5_TO_H16 presents three halves of exactly the channels' values, never negative, alpha 1.0 (`0x3C00`) and zeros above:
the narrowing never changes a value (R154, R155). -/
def Obligations.Rgb9e5ToH16Result : Prop :=
  ∀ (w : Rgb9e5) (s : State), ∃ x y z : Half,
    exec (.rgb9e5ToH16 w) s = .next (present ⟨0#64 ++ 0x3C00#16 ++ z ++ y ++ x, false⟩ s) ∧
    IsPattern16 ((w.r.toNat : ℚ) * (2 : ℚ) ^ ((w.e.toNat : ℤ) - 24)) x ∧
    IsPattern16 ((w.g.toNat : ℚ) * (2 : ℚ) ^ ((w.e.toNat : ℤ) - 24)) y ∧
    IsPattern16 ((w.b.toNat : ℚ) * (2 : ℚ) ^ ((w.e.toNat : ℤ) - 24)) z

/-- H2F of RGB9E5_TO_H16 gives UNPACK_RGB9E5 in lanes 0 to 2, bit for bit, and 1.0 in lane 3, for every operand (R156). -/
def Obligations.Rgb9e5ToH16IsLossless : Prop :=
  ∀ src : Bus, ∀ k : Fin 3,
    lane (execFn 0x6 (execFn 0xA src).dst).dst k = lane (execFn 0x2 src).dst k ∧
    lane (execFn 0x6 (execFn 0xA src).dst).dst 3 = 0x3F800000

/-! ## Byte layouts of texels in a host's buffers -/

/-- The stored bytes of each texel type are the little-endian bytes of its bus value: RGB9E5 with `{E, B[8:6]}` in byte 3,
RGBE8 as r, g, b, e, RGBA16F, the float triple and four floats (R41 to R45). -/
def Obligations.TexelByteLayouts : Prop :=
  (∀ w : Rgb9e5, leNat (bytesOfRgb9e5 (rgb9e5ToWord w)) = (rgb9e5ToWord w).toNat ∧
    (bytesOfRgb9e5 (rgb9e5ToWord w))[3]? = some (w.e ++ w.b.extractLsb' 6 3)) ∧
  (∀ t : Rgbe8, bytesOfRgbe8 t = [t.r, t.g, t.b, t.e] ∧ leNat (bytesOfRgbe8 t) = (rgbe8ToLane t).toNat) ∧
  (∀ r g b a : Half, (bytesOfRgba16f r g b a).length = 8 ∧
    leNat (bytesOfRgba16f r g b a) = (busOfH4 r g b a).toNat) ∧
  (∀ r g b : Lane, (bytesOfFloatTriple ⟨r, g, b⟩).length = 12 ∧
    leNat (bytesOfFloatTriple ⟨r, g, b⟩) = (busOfF3 r g b).toNat) ∧
  ∀ r g b a : Lane, (bytesOfFloat4 r g b a).length = 16 ∧
    leNat (bytesOfFloat4 r g b a) = (busOfF4 r g b a).toNat

/-- The host's load after its store at the same place gives the stored bytes of the bus, and every byte outside them reads
as before (R41 to R44). That the bus bits above the loaded bytes are 0 is the model's (DESIGN CHOICE, log 21). -/
def Obligations.BufferLoadAfterStore : Prop :=
  ∀ (buf buf' : Buffer) (a n : ℕ) (x : Bus), n ≤ 16 → storeBus buf a n x = some buf' →
    loadBus buf' a n = some (BitVec.ofNat 128 (x.toNat % 2 ^ (8 * n))) ∧
    buf'.length = buf.length ∧
    ∀ j, j < a ∨ a + n ≤ j → buf'[j]? = buf[j]?
end

