-- ==== Sys2Proof/Laws/Rounding.lean ====
section
/-! SUPPORT. The roundings on quotients of naturals, and the value of a scaled quotient. -/

namespace Sys2Proof.Laws

open Sys2Proof.Machine

theorem scaledDen_pos (q : Scaled) (k : Int) : 0 < scaledDen q k := Nat.two_pow_pos _

/-- Numerator over denominator is `q * 2^k`. -/
theorem scaledNum_div_scaledDen (q : Scaled) (k : Int) :
    (scaledNum q k : ℚ) / (scaledDen q k : ℚ) = scaledVal q * (2 : ℚ) ^ k := by
  have h2 : (2 : ℚ) ≠ 0 := by norm_num
  simp only [scaledNum, scaledDen, scaledVal, Nat.cast_mul, Nat.cast_pow, Nat.cast_ofNat]
  rw [mul_assoc, ← zpow_add₀ h2]
  rcases le_total 0 (q.exp + k) with h | h
  · obtain ⟨n, hn⟩ := Int.eq_ofNat_of_zero_le h
    rw [hn]; simp
  · obtain ⟨n, hn⟩ := Int.eq_ofNat_of_zero_le (neg_nonneg.mpr h)
    have hk : q.exp + k = -(n : Int) := by rw [← neg_neg (q.exp + k), hn]
    rw [hk]; simp [div_eq_mul_inv]

/-- `rneDiv` is within half a denominator of the quotient, and even at a distance of exactly half. -/
theorem rneDiv_spec (n d : Nat) (hd : 0 < d) :
    2 * (rneDiv n d * d) ≤ 2 * n + d ∧ 2 * n ≤ 2 * (rneDiv n d * d) + d ∧
      (2 * (rneDiv n d * d) = 2 * n + d ∨ 2 * n = 2 * (rneDiv n d * d) + d → rneDiv n d % 2 = 0) := by
  have hn : d * (n / d) + n % d = n := Nat.div_add_mod n d
  have hm : n % d < d := Nat.mod_lt n hd
  have hc : d * (n / d) = n / d * d := Nat.mul_comm _ _
  unfold rneDiv
  split_ifs with h1 h2
  · refine ⟨by omega, by omega, by omega⟩
  · have : (n / d + 1) * d = n / d * d + d := by ring
    refine ⟨by omega, by omega, by omega⟩
  · rcases Nat.mod_two_eq_zero_or_one (n / d) with hq | hq <;> rw [hq]
    · refine ⟨by simp; omega, by simp; omega, fun _ => by simpa using hq⟩
    · have : (n / d + 1) * d = n / d * d + d := by ring
      refine ⟨by omega, by omega, fun _ => by omega⟩

/-- `rhaDiv` is `floor(n / d + 1/2)`. -/
theorem rhaDiv_spec (n d : Nat) (hd : 0 < d) :
    2 * (rhaDiv n d * d) ≤ 2 * n + d ∧ 2 * n + d < 2 * (rhaDiv n d * d) + 2 * d := by
  have h1 := Nat.div_add_mod (2 * n + d) (2 * d)
  have h2 := Nat.mod_lt (2 * n + d) (by omega : 0 < 2 * d)
  have h3 : 2 * d * ((2 * n + d) / (2 * d)) = 2 * ((2 * n + d) / (2 * d) * d) := by ring
  unfold rhaDiv
  omega

end Sys2Proof.Laws
end

