-- ==== Sys2Proof/Laws/Float.lean ====
section
/-! SUPPORT. The fields of floating-point patterns: their ranges, and a pattern from its fields. -/

namespace Sys2Proof.Laws

open Sys2Proof.Machine

theorem exp32_lt (x : Lane) : exp32 x < 256 := (x.extractLsb' 23 8).isLt

theorem frac32_lt (x : Lane) : frac32 x < 2 ^ 23 := (x.extractLsb' 0 23).isLt

theorem exp16_lt (h : Half) : exp16 h < 32 := (h.extractLsb' 10 5).isLt

theorem frac16_lt (h : Half) : frac16 h < 2 ^ 10 := (h.extractLsb' 0 10).isLt

/-- A binary32 pattern with a clear sign is its exponent and fraction fields. -/
theorem toNat_of_fields32 (x : Lane) (h : sign32 x = false) : x.toNat = exp32 x * 2 ^ 23 + frac32 x := by
  have hs : x.toNat / 2 ^ 31 % 2 = 0 := by
    simpa [sign32, BitVec.getLsbD, Nat.testBit_eq_decide_div_mod_eq] using h
  have hx := x.isLt
  simp only [exp32, frac32, BitVec.extractLsb'_toNat, Nat.shiftRight_eq_div_pow]
  omega

/-- A finite pattern's value is its sign and its exact magnitude. -/
theorem f32val_of_finite {x : Lane} (h : exp32 x ≠ 255) : f32val x = .fin (sign32 x) (mag32 x) := by
  simp [f32val, isNaN32, h]

/-- A finite half's value is its sign and its exact magnitude. -/
theorem f16val_of_finite {x : Half} (h : exp16 x ≠ 31) : f16val x = .fin (sign16 x) (mag16 x) := by
  simp [f16val, isNaN16, h]

theorem scaledVal_nonneg (q : Scaled) : 0 ≤ scaledVal q := by
  unfold scaledVal; positivity

end Sys2Proof.Laws
end

