-- ==== Sys2Proof/Laws/Operands.lean ====
section
/-! SUPPORT. Lanes, half slots and texel fields of what the formats put on a bus. -/

namespace Sys2Proof.Laws

open Sys2Proof.Machine

@[simp] theorem rgb9e5OfWord_toWord (t : Rgb9e5) : rgb9e5OfWord (rgb9e5ToWord t) = t := by
  obtain ⟨r, g, b, e⟩ := t
  simp only [rgb9e5OfWord, rgb9e5ToWord, Rgb9e5.mk.injEq]
  refine ⟨?_, ?_, ?_, ?_⟩ <;> ext i hi <;> simp <;> grind

@[simp] theorem rgbe8OfLane_toLane (t : Rgbe8) : rgbe8OfLane (rgbe8ToLane t) = t := by
  obtain ⟨r, g, b, e⟩ := t
  simp only [rgbe8OfLane, rgbe8ToLane, Rgbe8.mk.injEq]
  refine ⟨?_, ?_, ?_, ?_⟩ <;> ext i hi <;> simp <;> grind

/-- A bus of four lanes reads back lane by lane. -/
theorem lane_of_four (r g b a : Lane) :
    lane (a ++ b ++ g ++ r) 0 = r ∧ lane (a ++ b ++ g ++ r) 1 = g ∧ lane (a ++ b ++ g ++ r) 2 = b ∧
      lane (a ++ b ++ g ++ r) 3 = a := by
  refine ⟨?_, ?_, ?_, ?_⟩ <;> ext i hi <;> simp [lane] <;> grind

/-- A bus of four half slots reads back slot by slot, whatever is above. -/
theorem half_of_four (x : BitVec 64) (r g b a : Half) :
    half (x ++ a ++ b ++ g ++ r) 0 = r ∧ half (x ++ a ++ b ++ g ++ r) 1 = g ∧ half (x ++ a ++ b ++ g ++ r) 2 = b ∧
      half (x ++ a ++ b ++ g ++ r) 3 = a := by
  refine ⟨?_, ?_, ?_, ?_⟩ <;> ext i hi <;> simp [half] <;> grind

end Sys2Proof.Laws
end

