-- ==== Sys2Proof/Laws/PerInstr.lean ====
section
/-! SUPPORT. Statements made per instruction: an operation's own code is never a reserved one (spec/30_encoding.md R54). -/

namespace Sys2Proof.Laws.NotReserved

/-- The operation code a transaction is encoded with decodes, with every operand, to an operation: it is not reserved. -/
def Statement (i : Instr) : Prop := ∀ (src : Bus) (c : ReservedCode), decode (encode i).1 src ≠ .reserved c

theorem packRgb9e5 (r g b : Lane) : Statement (.packRgb9e5 r g b) := by intro src c h; cases h

theorem packRgbe8 (r g b : Lane) : Statement (.packRgbe8 r g b) := by intro src c h; cases h

theorem unpackRgb9e5 (w : Rgb9e5) : Statement (.unpackRgb9e5 w) := by intro src c h; cases h

theorem unpackRgbe8 (t : Rgbe8) : Statement (.unpackRgbe8 t) := by intro src c h; cases h

theorem repackE8To9e5 (t : Rgbe8) : Statement (.repackE8To9e5 t) := by intro src c h; cases h

theorem repack9e5ToE8 (w : Rgb9e5) : Statement (.repack9e5ToE8 w) := by intro src c h; cases h

theorem h2f (r g b a : Half) : Statement (.h2f r g b a) := by intro src c h; cases h

theorem f2h (r g b a : Lane) : Statement (.f2h r g b a) := by intro src c h; cases h

theorem h16ToRgb9e5 (r g b a : Half) : Statement (.h16ToRgb9e5 r g b a) := by intro src c h; cases h

theorem h16ToRgbe8 (r g b a : Half) : Statement (.h16ToRgbe8 r g b a) := by intro src c h; cases h

theorem rgb9e5ToH16 (w : Rgb9e5) : Statement (.rgb9e5ToH16 w) := by intro src c h; cases h

end Sys2Proof.Laws.NotReserved
end

