-- ==== Sys2Proof/Laws/State.lean ====
section
/-! SUPPORT. One lemma per field per update of the state, all by `rfl`. -/

namespace Sys2Proof.Laws

open Sys2Proof.Machine

@[simp] theorem runCycle_ports (p : Stage) (s : State) :
    (runCycle p s).ports = nextPorts (s.draws + s.pipe.length + 1) s.host := rfl

@[simp] theorem runCycle_host (p : Stage) (s : State) : (runCycle p s).host = s.host.tail := rfl

@[simp] theorem runCycle_pipe (p : Stage) (s : State) :
    (runCycle p s).pipe =
      if s.ports.rst then freshStages (s.draws + 1) s.pipe.length else shiftStages p s.pipe := rfl

@[simp] theorem runCycle_out (p : Stage) (s : State) :
    (runCycle p s).out = driveOutputs (lastStage p s.pipe) s.draws := rfl

@[simp] theorem runCycle_results (p : Stage) (s : State) :
    (runCycle p s).results = capture (lastStage p s.pipe) s.results := rfl

@[simp] theorem runCycle_draws (p : Stage) (s : State) :
    (runCycle p s).draws = s.draws + s.pipe.length + 2 := rfl

@[simp] theorem withFetchWord_ports (s : State) (nbits w : Nat) :
    (s.withFetchWord nbits w).ports = ⟨false, true, tableOp nbits w, 0⟩ := rfl

@[simp] theorem withFetchWord_host (s : State) (nbits w : Nat) : (s.withFetchWord nbits w).host = s.host := rfl

@[simp] theorem withFetchWord_pipe (s : State) (nbits w : Nat) : (s.withFetchWord nbits w).pipe = s.pipe := rfl

@[simp] theorem withFetchWord_out (s : State) (nbits w : Nat) : (s.withFetchWord nbits w).out = s.out := rfl

@[simp] theorem withFetchWord_results (s : State) (nbits w : Nat) :
    (s.withFetchWord nbits w).results = s.results := rfl

@[simp] theorem withFetchWord_draws (s : State) (nbits w : Nat) : (s.withFetchWord nbits w).draws = s.draws := rfl

@[simp] theorem resetAt_ports (L : Nat) : (State.resetAt L).ports = Ports.quiet := rfl

@[simp] theorem resetAt_host (L : Nat) : (State.resetAt L).host = [] := rfl

@[simp] theorem resetAt_pipe (L : Nat) : (State.resetAt L).pipe = freshStages 0 L := rfl

@[simp] theorem resetAt_out (L : Nat) : (State.resetAt L).out = ⟨false, 0, false⟩ := rfl

@[simp] theorem resetAt_results (L : Nat) : (State.resetAt L).results = [] := rfl

end Sys2Proof.Laws
end

