-- ==== Sys2Proof/Laws/Pipeline.lean ====
section
/-! SUPPORT. What the pipeline's operations do: fresh stages, the shift, the last stage, the outputs and the capture. -/

namespace Sys2Proof.Laws

open Sys2Proof.Machine

@[simp] theorem freshStages_length (k : Nat) : ∀ n, (freshStages n k).length = k := by
  induction k with
  | zero => intro n; rfl
  | succ k ih => intro n; simp [freshStages, ih]

/-- Every fresh stage is empty. -/
theorem freshStages_valid (k : Nat) : ∀ n, ∀ st ∈ freshStages n k, st.valid = false := by
  induction k with
  | zero => intro n st h; simp [freshStages] at h
  | succ k ih =>
    intro n st h
    rcases List.mem_cons.mp h with rfl | h
    · rfl
    · exact ih _ st h

@[simp] theorem powerUpStages_length (k : Nat) : ∀ n, (powerUpStages n k).length = k := by
  induction k with
  | zero => intro n; rfl
  | succ k ih => intro n; simp [powerUpStages, ih]

@[simp] theorem shiftStages_nil (p : Stage) : shiftStages p [] = [] := rfl

@[simp] theorem shiftStages_length (p : Stage) (pipe : List Stage) : (shiftStages p pipe).length = pipe.length := by
  simp [shiftStages]

/-- With stages, the shift puts the presented stage in front and drops the last. -/
theorem shiftStages_cons (p x : Stage) (xs : List Stage) : shiftStages p (x :: xs) = p :: (x :: xs).dropLast := rfl

/-- A stage after the shift is the presented one or was a stage before. -/
theorem mem_shiftStages {p st : Stage} {pipe : List Stage} (h : st ∈ shiftStages p pipe) : st = p ∨ st ∈ pipe :=
  List.mem_cons.mp (List.mem_of_mem_dropLast h)

/-- The last stage together with the shifted ones is the presented stage and all the stages there were. -/
theorem shiftStages_append_last (p : Stage) (pipe : List Stage) :
    shiftStages p pipe ++ [lastStage p pipe] = p :: pipe := by
  have h := List.dropLast_concat_getLast (l := p :: pipe) (by simp)
  rwa [List.getLast_eq_getLastD] at h

@[simp] theorem lastStage_nil (p : Stage) : lastStage p [] = p := rfl

/-- The last stage is one of the stages, or the presented one where there are none. -/
theorem lastStage_mem (p : Stage) (pipe : List Stage) : lastStage p pipe = p ∨ lastStage p pipe ∈ pipe := by
  have h : lastStage p pipe ∈ p :: pipe := by
    rw [← shiftStages_append_last]; simp
  exact List.mem_cons.mp h

/-- A valid stage drives its result. -/
theorem driveOutputs_valid {o : Stage} (h : o.valid = true) (n : Nat) :
    driveOutputs o n = ⟨true, o.result.dst, o.result.illegal⟩ := by
  simp [driveOutputs, h]

/-- `out_valid` is the driving stage's valid bit. -/
@[simp] theorem driveOutputs_outValid (o : Stage) (n : Nat) : (driveOutputs o n).outValid = o.valid := by
  cases h : o.valid <;> simp [driveOutputs, h]

/-- A valid result is captured at the end. -/
theorem capture_valid {o : Stage} (h : o.valid = true) (rs : List Result) : capture o rs = rs ++ [o.result] := by
  simp [capture, h]

/-- Nothing is captured from an empty stage. -/
theorem capture_empty {o : Stage} (h : o.valid = false) (rs : List Result) : capture o rs = rs := by
  simp [capture, h]

end Sys2Proof.Laws
end

