-- ==== Sys2Proof/Laws/Step.lean ====
section
/-! SUPPORT. What an operation and a step can do, each said once. -/

namespace Sys2Proof.Laws

open Sys2Proof.Machine

/-- Every operation is a cycle that presents its result. -/
theorem exec_eq_present (i : Instr) (s : State) : exec i s = .next (present (resultOf i) s) := by
  cases i <;> rfl

/-- `EXEC` of an operand that decodes is the result of the transaction. -/
theorem execFn_of_transaction {op : OpCode} {src : Bus} {i : Instr} (h : decode op src = .transaction i) :
    execFn op src = resultOf i := by
  simp [execFn, h]

/-- `EXEC` of a reserved code. -/
theorem execFn_of_reserved {op : OpCode} {src : Bus} {c : ReservedCode} (h : decode op src = .reserved c) :
    execFn op src = reservedResult := by
  simp [execFn, h]

/-- What a step does, in every state: one cycle with `in_valid` and `EXEC(op, src)` at the input of stage 1. -/
theorem step_eq_runCycle (s : State) :
    step s = .next (runCycle ⟨s.ports.inValid, execFn s.ports.op s.ports.src⟩ s) := by
  unfold step presented
  cases hv : s.ports.inValid with
  | false => simp [idleCycle]
  | true =>
    cases hd : decode s.ports.op s.ports.src with
    | transaction i => simp [exec_eq_present, execFn_of_transaction hd, present]
    | reserved c => simp [takeReserved, execFn_of_reserved hd, present]

/-- Every operation's result has `illegal = 0`. -/
theorem resultOf_illegal (i : Instr) : (resultOf i).illegal = false := by
  cases i <;> rfl

end Sys2Proof.Laws
end

