-- ==== Sys2Proof/Tests/Slice0.lean ====
section
/-! SUPPORT. Tests of one operation or one step, with expected results from spec/95_test_vectors.md and the operation
rules, the well-formedness smoke test, and a witness for every statement that has hypotheses. -/

namespace Sys2Proof.Tests

open Sys2Proof.Machine Sys2Proof.Safety

/-! ## Well-formedness -/

/-- `rst` is no port of a block with `P_LATENCY = 0` (R23). -/
theorem test_rst_without_latency_refused : portsWellFormed 0 ⟨true, true, 0x0, 0⟩ = false := by decide

theorem test_rst_with_latency_accepted : portsWellFormed 1 ⟨true, true, 0x0, 0⟩ = true := by decide

theorem test_transaction_well_formed : wellFormed (.h2f 0x7C01 0x8000 0x0001 0xFFFF) = true := by decide

/-! ## Decoding: the words of R53 with operands laid out bit by bit from R51 and R52 -/

theorem test_decode_packRgb9e5 :
    decode 0b0000 0xDEADBEEF_3E800000_3F000000_3F800000 =
      .transaction (.packRgb9e5 0x3F800000 0x3F000000 0x3E800000) := by decide

theorem test_decode_packRgbe8 :
    decode 0b0001 0xDEADBEEF_3E800000_3F000000_3F800000 =
      .transaction (.packRgbe8 0x3F800000 0x3F000000 0x3E800000) := by decide

/-- The word `10000 001000000 010000000 100000000`: E = 16, B = 64, G = 128, R = 256 (95 S1). -/
theorem test_decode_unpackRgb9e5 :
    decode 0b0010 0b10000001000000010000000100000000 = .transaction (.unpackRgb9e5 ⟨256, 128, 64, 16⟩) := by decide

/-- The texel bytes `80 40 20 81` (95 S1). -/
theorem test_decode_unpackRgbe8 :
    decode 0b0011 0x81204080 = .transaction (.unpackRgbe8 ⟨128, 64, 32, 129⟩) := by decide

theorem test_decode_repackE8To9e5 :
    decode 0b0100 0xFFFFFFFF_FFFFFFFF_FFFFFFFF_825BAEC9 =
      .transaction (.repackE8To9e5 ⟨201, 174, 91, 130⟩) := by decide

theorem test_decode_repack9e5ToE8 :
    decode 0b0101 0x81010100 = .transaction (.repack9e5ToE8 ⟨256, 128, 64, 16⟩) := by decide

theorem test_decode_h2f :
    decode 0b0110 0xFFFFFFFF_FFFFFFFF_12343400_38003C00 =
      .transaction (.h2f 0x3C00 0x3800 0x3400 0x1234) := by decide

theorem test_decode_f2h :
    decode 0b0111 0x7FC00000_80000000_322BCC77_477FF000 =
      .transaction (.f2h 0x477FF000 0x322BCC77 0x80000000 0x7FC00000) := by decide

theorem test_decode_h16ToRgb9e5 :
    decode 0b1000 0x12343400_38003C00 = .transaction (.h16ToRgb9e5 0x3C00 0x3800 0x3400 0x1234) := by decide

theorem test_decode_h16ToRgbe8 :
    decode 0b1001 0x12343400_38003C00 = .transaction (.h16ToRgbe8 0x3C00 0x3800 0x3400 0x1234) := by decide

theorem test_decode_rgb9e5ToH16 :
    decode 0b1010 0x81010100 = .transaction (.rgb9e5ToH16 ⟨256, 128, 64, 16⟩) := by decide

theorem test_decode_reserved : decode 0b1100 0x81010100 = .reserved .codeC := by decide

theorem test_table_word : decodeTableWord 8 0xA = some (.rgb9e5ToH16 ⟨0, 0, 0, 0⟩) := by decide

theorem test_table_word_reserved : decodeTableWord 8 0xB = none := by decide

/-! ## Operations: vectors of spec/95_test_vectors.md part 2 -/

/-- P9-23. -/
theorem test_packRgb9e5_pi_e_sqrt2 :
    execFn 0x0 0x3FB504D5_402DF84D_40490FD0 = ⟨0x8AD6B992, false⟩ := by decide

/-- P9-20: ties to even at the floor exponent. -/
theorem test_packRgb9e5_ties : execFn 0x0 0x33000000_34600000_34200000 = ⟨0x00000802, false⟩ := by decide

/-- PE-9: ties away from zero. -/
theorem test_packRgbe8_ties : execFn 0x1 0x3CA00000_3B800000_3F800000 = ⟨0x81030180, false⟩ := by decide

/-- PE-11: infinity saturates. -/
theorem test_packRgbe8_infinity : execFn 0x1 0x3F800000_00000000_7F800000 = ⟨0xFF0000FF, false⟩ := by decide +kernel

/-- U9-3, with the value of C1. -/
theorem test_unpackRgb9e5_lowest : execFn 0x2 0x00000001 = ⟨0x33800000, false⟩ := by decide

/-- UE-5: exponent byte 0 is not zero. -/
theorem test_unpackRgbe8_exponent_zero : execFn 0x3 0x00000001 = ⟨0x00002000, false⟩ := by decide

/-- RE-17: the fast path does not renormalise (C2). -/
theorem test_repackE8To9e5_not_normalised : execFn 0x4 0x80000001 = ⟨0x78000002, false⟩ := by decide

/-- RE-11: the fallback rounds a tie to even. -/
theorem test_repackE8To9e5_fallback : execFn 0x4 0x6F0000FF = ⟨0x00000080, false⟩ := by decide

/-- R9-12: the exponent carries. -/
theorem test_repack9e5ToE8_carry : execFn 0x5 0x800001FF = ⟨0x82000080, false⟩ := by decide

/-- HF-5: signalling NaN patterns get the quiet bit. -/
theorem test_h2f_nan :
    execFn 0x6 0x1234_FC01_7FFF_7C01 = ⟨0x3A468000_FFC02000_7FFFE000_7FC02000, false⟩ := by decide

/-- HF-2: zeros and subnormals. -/
theorem test_h2f_subnormal :
    execFn 0x6 0x03FF_0001_8000_0000 = ⟨0x387FC000_33800000_80000000_00000000, false⟩ := by decide

/-- FH-3: underflow rounding. -/
theorem test_f2h_underflow :
    execFn 0x7 0xB3000001_33C00000_33A00000_33400000 = ⟨0x8001_0002_0001_0001, false⟩ := by decide

/-- FH-5: the overflow boundary. -/
theorem test_f2h_overflow :
    execFn 0x7 0x7F7FFFFF_47800000_477FF000_477FEFFF = ⟨0x7C00_7C00_7C00_7BFF, false⟩ := by decide

/-- H9-10. -/
theorem test_h16ToRgb9e5_subnormal : execFn 0x8 0x0000_03FF_03FF_03FF = ⟨0x14020100, false⟩ := by decide

/-- HE-7: a NaN counts as 0. -/
theorem test_h16ToRgbe8_nan : execFn 0x9 0x0000_0000_3C00_7E00 = ⟨0x81008000, false⟩ := by decide

/-- WH-6. -/
theorem test_rgb9e5ToH16_subnormal : execFn 0xA 0x0FFFFFFF = ⟨0x3C00_03FE_03FE_03FE, false⟩ := by decide

/-- RSV-3. -/
theorem test_reserved : execFn 0xD 0xFFFFFFFF_FFFFFFFF_FFFFFFFF_FFFFFFFF = ⟨0, true⟩ := by decide

/-! ## Byte layouts (95 S1 and program 4) -/

theorem test_rgb9e5_bytes : bytesOfRgb9e5 0x81010100 = [0x00, 0x01, 0x01, 0x81] := by decide

theorem test_rgba16f_load :
    loadBus [0x00, 0x3C, 0x00, 0x38, 0x00, 0x34, 0x34, 0x12] 0 8 = some 0x12343400_38003C00 := by decide

/-! ## Steps -/

/-- A small state: the ports of one cycle, nothing queued, the given stages. -/
def cycleState (rst inValid : Bool) (op : OpCode) (src : Bus) (pipe : List Stage) : State :=
  ⟨⟨rst, inValid, op, src⟩, [], pipe, ⟨false, 0, false⟩, [], 0⟩

/-- A stage that holds a result. -/
def fullStage (dst : Bus) : Stage := ⟨true, ⟨dst, false⟩⟩

/-- A stage that holds nothing. -/
def emptyStage : Stage := ⟨false, ⟨0, false⟩⟩

/-- Whether a step's next state satisfies a check. -/
def nextSatisfies (check : State → Bool) : Host.Outcome State Fault Refusal → Bool
  | .next t => check t
  | .fault _ => false
  | .refused _ => false

theorem test_first_step_after_reset :
    nextSatisfies (fun t => t.out == ⟨true, 0x03000000, false⟩) (step (State.reset.withFetchWord 8 0x1)) = true := by
  decide

/-- Program 3, cycle 5: T3's result is presented although `rst = 1`, and T4 and T5 are discarded. -/
theorem test_reset_cycle_presents_and_discards :
    nextSatisfies (fun t => t.out == ⟨true, 0, true⟩ && t.pipe.all (fun st => !st.valid) && t.pipe.length == 2)
      (step (cycleState true true 0x2 0x1 [fullStage 0x5, ⟨true, ⟨0, true⟩⟩])) = true := by
  decide

/-- Program 3, cycle 3: T1 leaves, T2 moves on, T3 enters as `dst = 0`, `illegal = 1`. -/
theorem test_pipeline_moves_on :
    nextSatisfies (fun t => t.out == ⟨true, 0x81010100, false⟩ &&
        t.pipe == [⟨true, ⟨0, true⟩⟩, fullStage 0x81204080])
      (step (cycleState false true 0xF 0 [fullStage 0x81204080, fullStage 0x81010100])) = true := by
  decide

/-- With no stages `rst` is absent: the transaction is presented all the same. -/
theorem test_no_reset_without_latency :
    nextSatisfies (fun t => t.results == [⟨0x33800000, false⟩]) (step (cycleState true true 0x2 0x1 [])) = true := by
  decide

/-! ## Witnesses: a state and operands that meet the hypotheses of each statement that has some -/

theorem witness_DecodeEncodeRoundTrip : wellFormed (.packRgb9e5 1 2 3) = true := by decide

theorem witness_EncodeDecodeNamedBits :
    decode 0x2 0xFFFFFFFF_00000000_00000000_00000001 = .transaction (.unpackRgb9e5 ⟨1, 0, 0, 0⟩) := by decide

theorem witness_ReservedCodesAreExactlyFive_first : (0xB : OpCode) = 0xB ∧ decode 0xB 7 = .reserved .codeB := by decide

theorem witness_ReservedCodesAreExactlyFive_last : (0xF : OpCode) = 0xF ∧ decode 0xF 7 = .reserved .codeF := by decide

theorem witness_IgnoredOperandBitsDoNotMatter :
    (0xFFFFFFFF_00000001_00000002_00000003 : Bus) &&& namedBits 0x0 =
      (0x00000000_00000001_00000002_00000003 : Bus) &&& namedBits 0x0 := by decide

theorem witness_StepRunsPresentedTransaction :
    (cycleState false true 0x4 0x81204080 []).ports.inValid = true ∧
    decode (cycleState false true 0x4 0x81204080 []).ports.op (cycleState false true 0x4 0x81204080 []).ports.src =
      .transaction (.repackE8To9e5 ⟨128, 64, 32, 129⟩) := by decide

theorem witness_ReservedCodeIsPresented :
    (cycleState false true 0xB 5 []).ports.inValid = true ∧ 11 ≤ (cycleState false true 0xB 5 []).ports.op.toNat := by
  decide

theorem witness_CombinationalCycle_transaction :
    (cycleState false true 0x0 5 []).pipe = [] ∧ (cycleState false true 0x0 5 []).ports.inValid = true := by decide

theorem witness_CombinationalCycle_idle :
    (cycleState true false 0x0 5 []).pipe = [] ∧ (cycleState true false 0x0 5 []).ports.inValid = false := by decide

theorem witness_PipelineAdvances_full :
    (cycleState false true 0x0 5 [emptyStage, fullStage 9]).pipe ≠ [] ∧
    (cycleState false true 0x0 5 [emptyStage, fullStage 9]).ports.rst = false ∧
    (cycleState false true 0x0 5 [emptyStage, fullStage 9]).pipe.getLast? = some (fullStage 9) ∧
    (fullStage 9).valid = true := by decide

theorem witness_PipelineAdvances_empty :
    (cycleState false false 0x0 5 [emptyStage]).pipe ≠ [] ∧
    (cycleState false false 0x0 5 [emptyStage]).ports.rst = false ∧
    (cycleState false false 0x0 5 [emptyStage]).pipe.getLast? = some emptyStage ∧ emptyStage.valid = false := by decide

theorem witness_ResetEdgeDiscardsInFlight_full :
    (cycleState true true 0x0 5 [fullStage 1, fullStage 2]).pipe ≠ [] ∧
    (cycleState true true 0x0 5 [fullStage 1, fullStage 2]).ports.rst = true ∧
    (cycleState true true 0x0 5 [fullStage 1, fullStage 2]).pipe.getLast? = some (fullStage 2) ∧
    (fullStage 2).valid = true := by decide

theorem witness_ResetEdgeDiscardsInFlight_empty :
    (cycleState true true 0x0 5 [fullStage 1, emptyStage]).pipe ≠ [] ∧
    (cycleState true true 0x0 5 [fullStage 1, emptyStage]).ports.rst = true ∧
    (cycleState true true 0x0 5 [fullStage 1, emptyStage]).pipe.getLast? = some emptyStage ∧
    emptyStage.valid = false := by decide

theorem witness_QuietAfterReset :
    (∀ st ∈ (cycleState false true 0x0 5 [emptyStage, emptyStage]).pipe, st.valid = false) ∧
    1 ≤ 2 ∧ 2 ≤ (cycleState false true 0x0 5 [emptyStage, emptyStage]).pipe.length := by decide

theorem witness_ResultAppearsAfterLatency :
    (cycleState false true 0x0 5 [emptyStage, fullStage 3]).ports.inValid = true ∧
    ∀ p ∈ ((cycleState false true 0x0 5 [emptyStage, fullStage 3]).ports ::
        (cycleState false true 0x0 5 [emptyStage, fullStage 3]).host).take 2, p.rst = false := by decide

/-- A pipelined state of latency 2 whose queue names the next three cycles. -/
def queuedState : State :=
  ⟨⟨false, true, 0x0, 5⟩, [⟨false, true, 0x1, 6⟩, ⟨false, false, 0, 0⟩, ⟨true, true, 0x2, 7⟩],
    [emptyStage, fullStage 3], ⟨false, 0, false⟩, [], 0⟩

/-- The queue names every cycle up to the result's: nothing rests on the idle host (log 2). -/
theorem witness_ResultAppearsAfterLatency_queued :
    queuedState.ports.inValid = true ∧ queuedState.pipe.length ≤ queuedState.host.length ∧
    ∀ p ∈ (queuedState.ports :: queuedState.host).take queuedState.pipe.length, p.rst = false := by decide

theorem witness_CycleKeepsResultsInOrder :
    (cycleState false true 0x0 5 [fullStage 3]).pipe ≠ [] ∧
    (cycleState false true 0x0 5 [fullStage 3]).ports.rst = false := by decide

theorem witness_RunRefinesExecMap :
    (cycleState false true 0x0 5 [fullStage 3]).pipe ≠ [] ∧
    ∀ p ∈ ((cycleState false true 0x0 5 [fullStage 3]).ports ::
        (cycleState false true 0x0 5 [fullStage 3]).host).take 4, p.rst = false := by decide

/-- The queue names all three cycles of the run. -/
theorem witness_RunRefinesExecMap_queued :
    queuedState.pipe ≠ [] ∧ 3 ≤ queuedState.host.length ∧
    ∀ p ∈ (queuedState.ports :: queuedState.host).take 3, p.rst = false := by decide

/-- Two states that differ in the operand of an idle cycle and in the data of an empty stage. -/
theorem witness_UnspecifiedDataAreNeverObserved :
    AgreeUpToUnspecified (cycleState false false 0x1 5 [⟨false, ⟨1, true⟩⟩, fullStage 3])
      (cycleState false false 0x2 6 [emptyStage, fullStage 3]) := by
  refine ⟨⟨rfl, rfl, ?_⟩, List.Forall₂.nil, ?_, ⟨rfl, ?_⟩, rfl⟩
  · decide
  · exact .cons ⟨rfl, by decide⟩ (.cons ⟨rfl, fun _ => rfl⟩ .nil)
  · decide

/-- A state whose only stage holds the result of a transaction is sound. -/
theorem witness_StepKeepsSound :
    Sound (cycleState false true 0x0 5 [⟨true, execFn 0x2 0x1⟩]) ∧
    ∃ t, step (cycleState false true 0x0 5 [⟨true, execFn 0x2 0x1⟩]) = .next t := by
  refine ⟨⟨?_, ?_, ?_⟩, ⟨_, rfl⟩⟩
  · intro st h _
    have : st = ⟨true, execFn 0x2 0x1⟩ := by simpa [cycleState] using h
    exact ⟨0x2, 0x1, by rw [this]⟩
  · intro r h; simp [cycleState] at h
  · intro h; simp [cycleState] at h

theorem witness_StepKeepsIllegalIsZero :
    IllegalIsZero (cycleState false true 0xB 5 [⟨true, ⟨0, true⟩⟩]) ∧
    ∃ t, step (cycleState false true 0xB 5 [⟨true, ⟨0, true⟩⟩]) = .next t := by
  refine ⟨⟨?_, ?_, ?_⟩, ⟨_, rfl⟩⟩
  · intro st h _ _
    have : st = ⟨true, ⟨0, true⟩⟩ := by simpa [cycleState] using h
    rw [this]
  · intro r h; simp [cycleState] at h
  · intro h; simp [cycleState] at h

theorem witness_LatencyIsFixed : ∃ t, step (cycleState false true 0x0 5 [emptyStage]) = .next t := ⟨_, rfl⟩

theorem witness_ResetMakesPowerUpIrrelevant :
    (cycleState true false 0x0 5 [fullStage 4]).pipe ≠ [] ∧
    (cycleState true false 0x0 5 [fullStage 4]).ports.rst = true ∧
    ∃ t u, step (cycleState true false 0x0 5 [fullStage 4]) = .next t ∧ Host.Core.run core 0 t = .next u :=
  ⟨by decide, by decide, _, _, rfl, rfl⟩

/-- The queue's two clauses and the clause without a reset edge (`cycleState` queues nothing). -/
theorem witness_OperationFrame :
    (cycleState false true 0x0 5 [fullStage 4]).host = [] ∧ (cycleState false true 0x0 5 [fullStage 4]).ports.rst = false ∧
    ∃ s : State, s.host = [⟨true, false, 0, 0⟩] := ⟨rfl, rfl, ⟨⟨false, true, 0, 0⟩, [⟨true, false, 0, 0⟩], [], ⟨false, 0, false⟩, [], 0⟩, rfl⟩

theorem witness_TransactionsDoNotDisturbOthers : (cycleState false true 0x0 5 [emptyStage]).pipe ≠ [] := by decide

theorem witness_PatternOrderIsValueOrder :
    finite32 0x3F800000 ∧ finite32 0x7F7FFFFF ∧ sign32 0x3F800000 = false ∧ sign32 0x7F7FFFFF = false := by decide

theorem witness_ChannelClamp :
    isNaN32 0x7FC00000 = true ∧ (isNaN32 0x80000000 = false ∧ sign32 0x80000000 = true) ∧
    (isNaN32 0x477F8001 = false ∧ sign32 0x477F8001 = false ∧ 0x477F8000 < (0x477F8001 : Lane).toNat) ∧
    (isNaN32 0x477F8000 = false ∧ sign32 0x477F8000 = false ∧ (0x477F8000 : Lane).toNat ≤ 0x477F8000) ∧
    finite32 0xBF800000 := by decide

theorem witness_PackRgb9e5Ranges_normalised :
    (∀ y ∈ [(0x37800000 : Lane), 0, 0], (cl9 y).toNat ≤ (cl9 0x37800000).toNat) ∧
    0x37800000 ≤ (cl9 0x37800000).toNat := by
  simp only [List.forall_mem_cons, List.not_mem_nil, false_implies, implies_true]; decide +kernel

theorem witness_PackRgb9e5Ranges_low :
    ∀ y ∈ [(0x377FFFFF : Lane), 0x33800000, 0], (cl9 y).toNat < 0x37800000 := by
  simp only [List.forall_mem_cons, List.not_mem_nil, false_implies, implies_true]; decide +kernel

theorem witness_NonPositiveChannelsPackAsZero :
    (isNaN32 0x7FC00000 || sign32 0x7FC00000) = true ∧ (isNaN32 0xFF800000 || sign32 0xFF800000) = true := by decide

theorem witness_PackRgbe8Result :
    isNaN32 0x7F800001 = true ∧ (isNaN32 0x80000000 = false ∧ sign32 0x80000000 = true) ∧
    (finite32 0x3F800000 ∧ sign32 0x3F800000 = false) := by decide

theorem witness_PackRgbe8Normalises_normalised :
    packErE8 0x7E7F7FFF 0 0 ≤ 253 ∧ isNaN32 0x7E7F7FFF = false ∧ sign32 0x7E7F7FFF = false ∧
    (∀ y ∈ [(0x7E7F7FFF : Lane), 0, 0], packKeyE8 y ≤ (0x7E7F7FFF : Lane).toNat) ∧
    0x00800000 ≤ (0x7E7F7FFF : Lane).toNat := by
  simp only [List.forall_mem_cons, List.not_mem_nil, false_implies, implies_true]; decide +kernel

theorem witness_PackRgbe8Normalises_low :
    (∀ y ∈ [(0x007FFFFF : Lane), 0, 0xFF800000], packKeyE8 y < 0x00800000) ∧
    isNaN32 0x007FFFFF = false ∧ sign32 0x007FFFFF = false := by
  simp only [List.forall_mem_cons, List.not_mem_nil, false_implies, implies_true]; decide +kernel

theorem witness_Rgbe8RoundTripBound :
    packErE8 0x3F800000 0x3F000000 0 ≤ 253 ∧ finite32 0x3F800000 ∧ sign32 0x3F800000 = false := by decide

theorem witness_Rgbe8MechanismComputesTheTexel : packErE8 0x3F800000 0x7FC00000 0xFF800000 ≤ 253 := by decide

theorem witness_RepackFastPath_bounds :
    (113 ≤ (⟨1, 0, 0, 113⟩ : Rgbe8).e.toNat ∧ (⟨1, 0, 0, 113⟩ : Rgbe8).e.toNat ≤ 143) ∧
    (113 ≤ (⟨255, 0, 0, 143⟩ : Rgbe8).e.toNat ∧ (⟨255, 0, 0, 143⟩ : Rgbe8).e.toNat ≤ 143) := by decide

theorem witness_RepackFallbackResult_low :
    (⟨255, 0, 0, 112⟩ : Rgbe8).e.toNat < 113 ∧ (⟨255, 0, 0, 112⟩ : Rgbe8).e.toNat ≤ 112 := by decide

theorem witness_RepackFallbackResult_boundary :
    143 < (⟨255, 0, 0, 144⟩ : Rgbe8).e.toNat ∧ (⟨255, 0, 0, 144⟩ : Rgbe8).e.toNat = 144 := by decide

theorem witness_RepackFallbackResult_high :
    143 < (⟨128, 128, 128, 145⟩ : Rgbe8).e.toNat ∧ 145 ≤ (⟨128, 128, 128, 145⟩ : Rgbe8).e.toNat ∧
    128 ≤ (⟨128, 128, 128, 145⟩ : Rgbe8).r.toNat := by decide

theorem witness_RepackFastPathBitEquality :
    113 ≤ (packRgbe8 0x3F800000 0 0).e.toNat ∧ (packRgbe8 0x3F800000 0 0).e.toNat ≤ 143 ∧
    normalisedE8 (packRgbe8 0x3F800000 0 0) := by decide

theorem witness_Repack9e5ToE8Result :
    (⟨0, 0, 0, 31⟩ : Rgb9e5).r = 0 ∧ (⟨0, 0, 0, 31⟩ : Rgb9e5).g = 0 ∧ (⟨0, 0, 0, 31⟩ : Rgb9e5).b = 0 := by decide

theorem witness_H2fResult :
    isNaN16 0x7C01 = true ∧ (0xFC00 : Half) &&& 0x7FFF = 0x7C00 ∧ finite16 0x0001 := by decide

theorem witness_F2hResult :
    isNaN32 0x7F800001 = true ∧ (0xFF800000 : Lane) &&& 0x7FFFFFFF = 0x7F800000 ∧ finite32 0x33000000 := by decide

/-- `1.0`, below the bound, and a finite half. -/
theorem witness_F2hIsNearest : finite32 0x3F800000 ∧ |val32 0x3F800000| < 65520 ∧ finite16 0x3C01 := by
  refine ⟨by decide, ?_, by decide⟩
  have h : f32val 0x3F800000 = .fin false ⟨8388608, -23⟩ := by decide
  have hv : val32 0x3F800000 = 8388608 * (2 : ℚ) ^ (-23 : ℤ) := by
    unfold val32; rw [h]; rfl
  rw [hv]; norm_num

theorem witness_HalfRoundTrip : isNaN16 0x7C00 = false ∧ isNaN16 0xFE01 = true := by decide

theorem witness_H16ToRgbe8Result : finite16 0x7BFF ∧ finite16 0x8000 ∧ finite16 0x0001 := by decide

theorem witness_BufferLoadAfterStore :
    2 ≤ 16 ∧ storeBus [1, 2, 3, 4] 1 2 0xAABBCC = some [1, 0xCC, 0xBB, 4] := by decide

end Sys2Proof.Tests
end

section
/-! The reserved operation codes (spec/30_encoding.md R54): which codes they are, and what `EXEC` of one is. -/

namespace Sys2Proof.Proofs.Encoding

open Sys2Proof.Machine

/-- The rows of R53 end at 0xA: every later code is reserved, and no earlier one is. -/
theorem exists_decode_eq_reserved_iff (op : OpCode) (src : Bus) :
    (∃ c, decode op src = .reserved c) ↔ 11 ≤ op.toNat := by
  unfold decode
  split
  case h_16 =>
    have hge : 11 ≤ op.toNat := by simp only [imp_false] at *; omega
    simp [hge]
  all_goals simp [*]

/-- The four-bit codes from 0xB on, listed. -/
theorem eleven_le_toNat_iff (op : OpCode) :
    11 ≤ op.toNat ↔ op = 0xB ∨ op = 0xC ∨ op = 0xD ∨ op = 0xE ∨ op = 0xF := by
  bv_omega

/-- `EXEC` of a code from 0xB on is the reserved result, whatever the operand (R54). -/
theorem execFn_of_eleven_le {op : OpCode} (h : 11 ≤ op.toNat) (src : Bus) : execFn op src = reservedResult := by
  obtain ⟨c, hc⟩ := (exists_decode_eq_reserved_iff op src).mpr h
  exact Laws.execFn_of_reserved hc

/-- Settles O4: both clauses speak of the codes from 0xB on. -/
theorem reservedCodesAreExactlyFive : Obligations.ReservedCodesAreExactlyFive := by
  intro op src
  rw [← eleven_le_toNat_iff]
  exact ⟨exists_decode_eq_reserved_iff op src, fun h => execFn_of_eleven_le h src⟩

end Sys2Proof.Proofs.Encoding
end

section
/-! The model's two roundings meet R13, and what a rounding can be at most or at least. -/

namespace Sys2Proof.Proofs.Rounding

open Sys2Proof.Machine Sys2Proof.Safety

/-- Numerator and denominator of `q * 2^k`, without a division. -/
theorem scaledVal_mul_zpow_mul_scaledDen (q : Scaled) (k : ℤ) :
    scaledVal q * (2 : ℚ) ^ k * scaledDen q k = scaledNum q k := by
  have hd : (scaledDen q k : ℚ) ≠ 0 := by exact_mod_cast (Laws.scaledDen_pos q k).ne'
  rw [← Laws.scaledNum_div_scaledDen, div_mul_cancel₀ _ hd]

/-- `rneDiv` rounds the quotient `v` of its arguments to nearest, ties to even (R13). -/
theorem isRNE_rneDiv {v : ℚ} {n d : ℕ} (hd : 0 < d) (hv : v * d = n) : IsRNE v (rneDiv n d) := by
  obtain ⟨hhi, hlo, heven⟩ := Laws.rneDiv_spec n d hd
  generalize rneDiv n d = m at *
  qify at hd hhi hlo
  rw [← hv] at hhi hlo
  refine ⟨abs_le.mpr ⟨?_, ?_⟩, fun hhalf => heven ?_⟩
  · nlinarith
  · nlinarith
  · qify
    rw [← hv]
    exact ((abs_eq (by norm_num)).mp hhalf).imp (fun h => by linear_combination 2 * d * h)
      fun h => by linear_combination -2 * d * h

/-- `rhaDiv` rounds the quotient `v` of its arguments to `floor(v + 1/2)` (R13). -/
theorem isRHA_rhaDiv {v : ℚ} {n d : ℕ} (hd : 0 < d) (hv : v * d = n) : IsRHA v (rhaDiv n d) := by
  obtain ⟨hhi, hlo⟩ := Laws.rhaDiv_spec n d hd
  generalize rhaDiv n d = m at *
  qify at hd hhi hlo
  rw [← hv] at hhi hlo
  exact ⟨by nlinarith, by nlinarith⟩

theorem isRNE_rne (q : Scaled) (k : ℤ) : IsRNE (scaledVal q * (2 : ℚ) ^ k) (rne q k) :=
  isRNE_rneDiv (Laws.scaledDen_pos q k) (scaledVal_mul_zpow_mul_scaledDen q k)

theorem isRHA_rha (q : Scaled) (k : ℤ) : IsRHA (scaledVal q * (2 : ℚ) ^ k) (rha q k) :=
  isRHA_rhaDiv (Laws.scaledDen_pos q k) (scaledVal_mul_zpow_mul_scaledDen q k)

/-- Where `q * 2^k` has no denominator, its floor is its numerator. -/
theorem scaledFloor_of_nonneg {q : Scaled} {k : ℤ} (h : 0 ≤ q.exp + k) :
    scaledFloor q k = q.sig * 2 ^ (q.exp + k).toNat := by
  have hden : (-(q.exp + k)).toNat = 0 := by omega
  simp only [scaledFloor, scaledNum, scaledDen, hden, pow_zero, Nat.div_one]

theorem scaledFloor_eq_val {q : Scaled} {k : ℤ} (h : 0 ≤ q.exp + k) :
    (scaledFloor q k : ℚ) = scaledVal q * (2 : ℚ) ^ k := by
  obtain ⟨n, hn⟩ := Int.eq_ofNat_of_zero_le h
  rw [scaledFloor_of_nonneg h, scaledVal, mul_assoc, ← zpow_add₀ two_ne_zero, hn]
  simp

variable {v : ℚ} {m n : ℕ}

theorem abs_sub_le_of_isRHA (h : IsRHA v m) : |(m : ℚ) - v| ≤ 1 / 2 := by
  obtain ⟨hhi, hlo⟩ := h
  exact abs_le.mpr ⟨by linarith, by linarith⟩

theorem isRNE_le (h : IsRNE v m) (hv : v < n + 1 / 2) : m ≤ n := by
  have : (m : ℚ) < n + 1 := by linarith [(abs_le.mp h.1).2]
  exact Nat.lt_succ_iff.mp (by exact_mod_cast this)

theorem le_isRNE (h : IsRNE v m) (hv : (n : ℚ) - 1 / 2 < v) : n ≤ m := by
  have : (n : ℚ) < m + 1 := by linarith [(abs_le.mp h.1).1]
  exact Nat.lt_succ_iff.mp (by exact_mod_cast this)

theorem isRHA_le (h : IsRHA v m) (hv : v < n + 1 / 2) : m ≤ n := by
  have : (m : ℚ) < n + 1 := by linarith [h.1]
  exact Nat.lt_succ_iff.mp (by exact_mod_cast this)

theorem le_isRHA (h : IsRHA v m) (hv : (n : ℚ) - 1 / 2 ≤ v) : n ≤ m := by
  have : (n : ℚ) < m + 1 := by linarith [h.2]
  exact Nat.lt_succ_iff.mp (by exact_mod_cast this)

/-- Half a unit of rounding in units of `2^k` is an error of `2^(k-1)`. -/
theorem abs_mul_zpow_sub_le {k : ℤ} (h : |(m : ℚ) - v * (2 : ℚ) ^ (-k)| ≤ 1 / 2) :
    |(m : ℚ) * (2 : ℚ) ^ k - v| ≤ (2 : ℚ) ^ (k - 1) := by
  have hpos : (0 : ℚ) < (2 : ℚ) ^ k := zpow_pos two_pos k
  have hk : (2 : ℚ) ^ (-k) * (2 : ℚ) ^ k = 1 := by rw [← zpow_add₀ two_ne_zero]; simp
  have hm : (m : ℚ) * (2 : ℚ) ^ k - v = (m - v * (2 : ℚ) ^ (-k)) * (2 : ℚ) ^ k := by
    linear_combination v * hk
  rw [hm, abs_mul, abs_of_pos hpos, zpow_sub_one₀ two_ne_zero, mul_comm ((2 : ℚ) ^ k), ← one_div]
  exact mul_le_mul_of_nonneg_right h hpos.le

end Sys2Proof.Proofs.Rounding
end

section
/-! Binary32 patterns with a clear sign bit (R11, R12): the value as a function of the pattern's unsigned number. -/

namespace Sys2Proof.Proofs.Float32

open Sys2Proof.Machine Sys2Proof.Safety

/-- The value of the finite binary32 pattern with the unsigned number `n` and a clear sign bit; the formula goes on in
the same way where `n` is no such pattern. -/
def patternVal (n : ℕ) : ℚ :=
  if n < 2 ^ 23 then (n : ℚ) * (2 : ℚ) ^ (-149 : ℤ)
  else ((2 ^ 23 + n % 2 ^ 23 : ℕ) : ℚ) * (2 : ℚ) ^ (((n / 2 ^ 23 : ℕ) : ℤ) - 150)

theorem patternVal_subnormal {n : ℕ} (h : n < 2 ^ 23) : patternVal n = (n : ℚ) * (2 : ℚ) ^ (-149 : ℤ) := if_pos h

/-- The pattern of exponent field `e` and fraction `f` has the significand `2^23 + f`. -/
theorem patternVal_normal {e f : ℕ} (he : 1 ≤ e) (hf : f < 2 ^ 23) :
    patternVal (e * 2 ^ 23 + f) = ((2 ^ 23 + f : ℕ) : ℚ) * (2 : ℚ) ^ ((e : ℤ) - 150) := by
  rw [patternVal, if_neg (by omega), show (e * 2 ^ 23 + f) % 2 ^ 23 = f by omega,
    show (e * 2 ^ 23 + f) / 2 ^ 23 = e by omega]

/-- `d` below the first pattern of exponent field `e` lies `d` units of the binade below (R11). -/
theorem patternVal_below {e d : ℕ} (he : 2 ≤ e) (hd : 1 ≤ d) (hd' : d ≤ 2 ^ 23) :
    patternVal (e * 2 ^ 23 - d) = ((2 ^ 24 - d : ℕ) : ℚ) * (2 : ℚ) ^ ((e : ℤ) - 151) := by
  rw [show e * 2 ^ 23 - d = (e - 1) * 2 ^ 23 + (2 ^ 23 - d) by omega, patternVal_normal (by omega) (by omega),
    show 2 ^ 23 + (2 ^ 23 - d) = 2 ^ 24 - d by omega, show ((e - 1 : ℕ) : ℤ) - 150 = (e : ℤ) - 151 by omega]

/-- Patterns order as their values do (R12): the next pattern is one unit in the last place up, or, where the fraction
carries, the first of the next binade. -/
theorem patternVal_strictMono : StrictMono patternVal := by
  refine strictMono_nat_of_lt_succ fun n => ?_
  rcases Nat.lt_or_ge n (2 ^ 23) with hsub | hnorm
  · rcases Nat.lt_or_ge (n + 1) (2 ^ 23) with hnext | hcarry
    · rw [patternVal_subnormal hsub, patternVal_subnormal hnext]
      exact mul_lt_mul_of_pos_right (by norm_num) (by positivity)
    · obtain rfl : n = 2 ^ 23 - 1 := by omega
      norm_num [patternVal]
  · obtain ⟨e, f, he, hf, rfl⟩ : ∃ e f, 1 ≤ e ∧ f < 2 ^ 23 ∧ n = e * 2 ^ 23 + f :=
      ⟨n / 2 ^ 23, n % 2 ^ 23, by omega, by omega, by omega⟩
    rw [patternVal_normal he hf]
    rcases Nat.lt_or_ge (f + 1) (2 ^ 23) with hnext | hcarry
    · rw [add_assoc, patternVal_normal he hnext]
      exact mul_lt_mul_of_pos_right (by norm_num) (by positivity)
    · obtain rfl : f = 2 ^ 23 - 1 := by omega
      rw [show e * 2 ^ 23 + (2 ^ 23 - 1) + 1 = (e + 1) * 2 ^ 23 + 0 by omega, patternVal_normal (by omega) (by omega),
        show ((e + 1 : ℕ) : ℤ) - 150 = (e - 150 : ℤ) + 1 by omega, zpow_add_one₀ two_ne_zero]
      have := zpow_pos (two_pos (α := ℚ)) (e - 150)
      norm_num
      linarith

/-- A pattern whose sum with `a` has the exponent field `e` or less is below the one `a` short of the next binade; both
in units of `2^-k`. -/
theorem scaled_patternVal_lt {n a e : ℕ} {k j : ℤ} (ha : 1 ≤ a) (ha' : a ≤ 2 ^ 23) (he : 1 ≤ e)
    (h : n + a < (e + 1) * 2 ^ 23) (hk : (e : ℤ) - 150 + k = j) :
    patternVal n * (2 : ℚ) ^ k < ((2 ^ 24 - a : ℕ) : ℚ) * (2 : ℚ) ^ j := by
  have hlt := patternVal_strictMono (show n < (e + 1) * 2 ^ 23 - a by omega)
  rw [patternVal_below (by omega) ha ha', show ((e + 1 : ℕ) : ℤ) - 151 = e - 150 by omega] at hlt
  rw [← hk, zpow_add₀ two_ne_zero, ← mul_assoc]
  exact mul_lt_mul_of_pos_right hlt (by positivity)

/-- A pattern whose sum with `a` has the exponent field `e` or more is at least the one `a` short of that binade; both
in units of `2^-k`. -/
theorem le_scaled_patternVal {n a e : ℕ} {k j : ℤ} (ha : 1 ≤ a) (ha' : a ≤ 2 ^ 23) (he : 2 ≤ e)
    (h : e * 2 ^ 23 ≤ n + a) (hk : (e : ℤ) - 151 + k = j) :
    ((2 ^ 24 - a : ℕ) : ℚ) * (2 : ℚ) ^ j ≤ patternVal n * (2 : ℚ) ^ k := by
  have hle := patternVal_strictMono.monotone (show e * 2 ^ 23 - a ≤ n by omega)
  rw [patternVal_below he ha ha'] at hle
  rw [← hk, zpow_add₀ two_ne_zero, ← mul_assoc]
  exact mul_le_mul_of_nonneg_right hle (by positivity)

theorem patternVal_nonneg (n : ℕ) : 0 ≤ patternVal n := by
  unfold patternVal
  split <;> positivity

/-- A clear sign bit says that the pattern is below `0x80000000`. -/
theorem sign32_eq_false_iff (x : Lane) : sign32 x = false ↔ x.toNat < 2 ^ 31 := by
  have hx := x.isLt
  simp only [sign32, BitVec.getLsbD, Nat.testBit_eq_decide_div_mod_eq, decide_eq_false_iff_not]
  omega

theorem frac32_eq_mod (x : Lane) : frac32 x = x.toNat % 2 ^ 23 := by simp [frac32]

/-- The exponent field of a pattern with a clear sign bit. -/
theorem exp32_eq_div {x : Lane} (h : sign32 x = false) : exp32 x = x.toNat / 2 ^ 23 := by
  have := Laws.toNat_of_fields32 x h
  have := Laws.frac32_lt x
  omega

/-- The patterns below `0x7F800000` are the finite ones with a clear sign bit (R12). -/
theorem finite_nonneg_iff (x : Lane) : finite32 x ∧ sign32 x = false ↔ x.toNat < 0x7F800000 := by
  constructor
  · rintro ⟨hfin, hs⟩
    have := exp32_eq_div hs
    have := Laws.exp32_lt x
    omega
  · intro h
    have hs := (sign32_eq_false_iff x).mpr (by omega)
    have := exp32_eq_div hs
    exact ⟨by omega, hs⟩

theorem scaledVal_mag32 {x : Lane} (hs : sign32 x = false) : scaledVal (mag32 x) = patternVal x.toNat := by
  have he := exp32_eq_div hs
  unfold mag32 patternVal scaledVal
  rw [he, frac32_eq_mod]
  rcases Nat.lt_or_ge x.toNat (2 ^ 23) with h | h
  · rw [if_pos (by omega), if_pos h, Nat.mod_eq_of_lt h]
  · rw [if_neg (by omega), if_neg (by omega)]

theorem not_isNaN32_of_finite {x : Lane} (h : finite32 x) : isNaN32 x = false := by
  simp [isNaN32, h]

/-- The value of a finite pattern with a set sign bit. -/
theorem val32_of_neg {x : Lane} (hf : finite32 x) (hs : sign32 x = true) : val32 x = -scaledVal (mag32 x) := by
  simp [val32, Laws.f32val_of_finite hf, hs, fvalRat]

/-- The value of a finite pattern with a clear sign bit is its magnitude. -/
theorem val32_of_nonneg {x : Lane} (hf : finite32 x) (hs : sign32 x = false) : val32 x = scaledVal (mag32 x) := by
  simp [val32, Laws.f32val_of_finite hf, hs, fvalRat]

theorem val32_eq_patternVal {x : Lane} (h : x.toNat < 0x7F800000) : val32 x = patternVal x.toNat := by
  obtain ⟨hf, hs⟩ := (finite_nonneg_iff x).mpr h
  rw [val32_of_nonneg hf hs, scaledVal_mag32 hs]

/-- A significand of at most 24 bits, shifted up until bit 23 is set. -/
theorem shifted_significand_bounds {n : ℕ} (hn : n ≠ 0) (hlt : n < 2 ^ 24) :
    n.log2 ≤ 23 ∧ 2 ^ 23 ≤ n * 2 ^ (23 - n.log2) ∧ n * 2 ^ (23 - n.log2) < 2 ^ 24 := by
  have hlog : n.log2 ≤ 23 := Nat.lt_succ_iff.mp ((Nat.log2_lt hn).mpr hlt)
  have h23 : 2 ^ n.log2 * 2 ^ (23 - n.log2) = 2 ^ 23 := by rw [← pow_add, Nat.add_sub_of_le hlog]
  have h24 : 2 ^ (n.log2 + 1) * 2 ^ (23 - n.log2) = 2 ^ 24 := by rw [pow_succ, mul_right_comm, h23, ← pow_succ]
  refine ⟨hlog, ?_, ?_⟩
  · exact h23 ▸ Nat.mul_le_mul_right _ (Nat.log2_self_le hn)
  · exact h24 ▸ Nat.mul_lt_mul_of_pos_right Nat.lt_log2_self (Nat.two_pow_pos _)

/-- The pattern number `f32bits` gives a number of the normal range, with the number's value. -/
theorem f32bits_normal {q : Scaled} (hsig : q.sig ≠ 0) (hlt : q.sig < 2 ^ 24) (hlo : -126 ≤ scaledLog2 q)
    (hhi : scaledLog2 q ≤ 127) :
    ∃ n : ℕ, f32bits q = BitVec.ofNat 32 n ∧ n < 0x7F800000 ∧ patternVal n = scaledVal q := by
  obtain ⟨hlog, hfloor_ge, hfloor_lt⟩ := shifted_significand_bounds hsig hlt
  have hexp : q.exp + (23 - scaledLog2 q) = ((23 - q.sig.log2 : ℕ) : ℤ) := by simp only [scaledLog2]; omega
  have hval := Rounding.scaledFloor_eq_val (q := q) (k := 23 - scaledLog2 q) (by omega)
  have hfloor := Rounding.scaledFloor_of_nonneg (q := q) (k := 23 - scaledLog2 q) (by omega)
  rw [hexp, Int.toNat_natCast] at hfloor
  refine ⟨_, by rw [f32bits, if_neg hsig, if_pos hlo], by omega, ?_⟩
  rw [patternVal_normal (by omega) (by omega), Nat.add_sub_of_le (by omega), hval, mul_assoc, ← zpow_add₀ two_ne_zero,
    show 23 - scaledLog2 q + (((scaledLog2 q + 127).toNat : ℤ) - 150) = 0 by omega, zpow_zero, mul_one]

/-- The pattern number `f32bits` gives a number of the subnormal range, with the number's value. -/
theorem f32bits_subnormal {q : Scaled} (hsig : q.sig ≠ 0) (hexp : -149 ≤ q.exp) (hhi : scaledLog2 q < -126) :
    ∃ n : ℕ, f32bits q = BitVec.ofNat 32 n ∧ n < 0x7F800000 ∧ patternVal n = scaledVal q := by
  have hval := Rounding.scaledFloor_eq_val (q := q) (k := 149) (by omega)
  have hlt : scaledFloor q 149 < 2 ^ 23 := by
    rw [Rounding.scaledFloor_of_nonneg (by omega)]
    calc q.sig * 2 ^ (q.exp + 149).toNat
        < 2 ^ (q.sig.log2 + 1) * 2 ^ (q.exp + 149).toNat :=
          Nat.mul_lt_mul_of_pos_right Nat.lt_log2_self (Nat.two_pow_pos _)
      _ = 2 ^ (q.sig.log2 + 1 + (q.exp + 149).toNat) := (pow_add ..).symm
      _ ≤ 2 ^ 23 := Nat.pow_le_pow_right two_pos (by simp only [scaledLog2] at hhi; omega)
  refine ⟨_, by rw [f32bits, if_neg hsig, if_neg (by omega)], by omega, ?_⟩
  rw [patternVal_subnormal hlt, hval, mul_assoc, ← zpow_add₀ two_ne_zero]
  norm_num

/-- `f32bits` of a number with at most 24 significant bits, no bit below `2^-149` and none above `2^127` is a pattern of
exactly that value (R12). -/
theorem isPattern32_f32bits {q : Scaled} (hsig : q.sig < 2 ^ 24) (hexp : -149 ≤ q.exp)
    (hlog : q.sig ≠ 0 → scaledLog2 q ≤ 127) : IsPattern32 (scaledVal q) (f32bits q) := by
  have h : ∃ n : ℕ, f32bits q = BitVec.ofNat 32 n ∧ n < 0x7F800000 ∧ patternVal n = scaledVal q := by
    rcases eq_or_ne q.sig 0 with hzero | hpos
    · exact ⟨0, by simp [f32bits, hzero], by norm_num, by simp [patternVal, scaledVal, hzero]⟩
    rcases Int.lt_or_le (scaledLog2 q) (-126) with hsub | hnorm
    · exact f32bits_subnormal hpos hexp hsub
    · exact f32bits_normal hpos hsig hnorm (hlog hpos)
  obtain ⟨n, hbits, hn, hval⟩ := h
  have htoNat : (f32bits q).toNat = n := by rw [hbits, BitVec.toNat_ofNat, Nat.mod_eq_of_lt (by omega)]
  have hlt : (f32bits q).toNat < 0x7F800000 := by omega
  obtain ⟨hf, hs⟩ := (finite_nonneg_iff _).mpr hlt
  exact ⟨hf, hs, by rw [val32_eq_patternVal hlt, htoNat, hval]⟩

end Sys2Proof.Proofs.Float32
end

section
/-! The texel results on the bus (R55), and the patterns the two unpacks give (R101, R106). -/

namespace Sys2Proof.Proofs.Texel

open Sys2Proof.Machine Sys2Proof.Safety

/-- A lane alone on the bus has zeros above (R55). -/
theorem setWidth_lane (w : Lane) : w.setWidth 128 = 0#96 ++ w := by
  rw [BitVec.setWidth_eq_append (by norm_num)]
  rfl

theorem busOfW9_eq_append (t : Rgb9e5) : busOfW9 t = 0#96 ++ (t.e ++ t.b ++ t.g ++ t.r) :=
  setWidth_lane _

theorem busOfE8_eq_append (t : Rgbe8) : busOfE8 t = 0#96 ++ (t.e ++ t.b ++ t.g ++ t.r) :=
  setWidth_lane _

/-- An RGB9E5 channel is exact in binary32 (R101). -/
theorem isPattern32_channelVal9 (e : BitVec 5) (m : BitVec 9) :
    IsPattern32 (value9 e m) (f32bits (channelVal9 e m)) := by
  have hm : m.toNat < 2 ^ 9 := m.isLt
  refine Float32.isPattern32_f32bits (q := channelVal9 e m) ?_ ?_ fun hsig => ?_
  · simp only [channelVal9]; omega
  · simp only [channelVal9]; omega
  · have := (Nat.log2_lt hsig).mpr hm
    simp only [scaledLog2, channelVal9] at this ⊢
    omega

/-- An RGBE8 channel is exact in binary32 (R106). -/
theorem isPattern32_channelValE8 (e n : BitVec 8) :
    IsPattern32 (valueE8 e n) (f32bits (channelValE8 e n)) := by
  have hn : n.toNat < 2 ^ 8 := n.isLt
  refine Float32.isPattern32_f32bits (q := channelValE8 e n) ?_ ?_ fun hsig => ?_
  · simp only [channelValE8]; omega
  · simp only [channelValE8]; omega
  · have := (Nat.log2_lt hsig).mpr hn
    simp only [scaledLog2, channelValE8] at this ⊢
    omega

end Sys2Proof.Proofs.Texel
end

section
/-! PACK_RGB9E5 (spec/40_pack.md R70 to R78): the channel clamp, the ranges of the shared exponent and the mantissas,
and the distance of an unpacked word from the clamped channels. -/

namespace Sys2Proof.Proofs.PackRgb9e5

open Sys2Proof.Machine Sys2Proof.Safety Sys2Proof.Proofs.Float32 Sys2Proof.Proofs.Rounding

/-! ## The channel clamp (R71) -/

theorem cl9_of_isNaN32 {x : Lane} (h : isNaN32 x = true) : cl9 x = 0 := by simp [cl9, h]

theorem cl9_of_sign32 {x : Lane} (h : sign32 x = true) : cl9 x = 0 := by simp [cl9, h]

theorem cl9_of_lt {x : Lane} (hn : isNaN32 x = false) (hs : sign32 x = false) (h : 0x477F8000 < x.toNat) :
    cl9 x = 0x477F8000 := by
  have hlt : Config.clampMax9 < x := BitVec.lt_def.mpr h
  simp only [cl9, hn, hs, hlt, if_true, Bool.false_eq_true, if_false]
  rfl

theorem cl9_of_le {x : Lane} (hn : isNaN32 x = false) (hs : sign32 x = false) (h : x.toNat ≤ 0x477F8000) :
    cl9 x = x := by
  have hle : ¬ Config.clampMax9 < x := fun hlt => absurd (BitVec.lt_def.mp hlt) (Nat.not_lt.mpr h)
  simp [cl9, hn, hs, hle]

/-- The clamped pattern is at most that of 65408: the four rows of R71 once more. -/
theorem cl9_toNat_le (x : Lane) : (cl9 x).toNat ≤ 0x477F8000 := by
  cases hn : isNaN32 x
  case true => simp [cl9_of_isNaN32 hn]
  cases hs : sign32 x
  case true => simp [cl9_of_sign32 hs]
  rcases Nat.lt_or_ge 0x477F8000 x.toNat with h | h
  · simp [cl9_of_lt hn hs h]
  · rwa [cl9_of_le hn hs h]

theorem cl9_finite_nonneg (x : Lane) : finite32 (cl9 x) ∧ sign32 (cl9 x) = false :=
  (finite_nonneg_iff _).mpr (by have := cl9_toNat_le x; omega)

theorem val32_cl9 (x : Lane) : val32 (cl9 x) = patternVal (cl9 x).toNat :=
  val32_eq_patternVal (by have := cl9_toNat_le x; omega)

theorem val32_cl9_nonneg (x : Lane) : 0 ≤ val32 (cl9 x) := val32_cl9 x ▸ patternVal_nonneg _

/-- `0x477F8000` is the pattern of 65408 (R8). -/
theorem patternVal_clampMax9 : patternVal 0x477F8000 = 65408 := by norm_num [patternVal]

theorem patternVal_le_clampMax9_iff (n : ℕ) : patternVal n ≤ 65408 ↔ n ≤ 0x477F8000 := by
  rw [← patternVal_clampMax9, patternVal_strictMono.le_iff_le]

theorem val32_cl9_le (x : Lane) : val32 (cl9 x) ≤ 65408 := by
  rw [val32_cl9, patternVal_le_clampMax9_iff]
  exact cl9_toNat_le x

/-- On finite patterns `CL9` is the clamp of the value to `[0, 65408]`. -/
theorem val32_cl9_of_finite {x : Lane} (hf : finite32 x) : val32 (cl9 x) = min (max (val32 x) 0) 65408 := by
  have hn := not_isNaN32_of_finite hf
  cases hs : sign32 x
  case true =>
    have hneg : val32 x ≤ 0 := by
      rw [val32_of_neg hf hs]
      exact neg_nonpos.mpr (Laws.scaledVal_nonneg _)
    rw [val32_cl9, cl9_of_sign32 hs, max_eq_right hneg]
    simp [patternVal]
  case false =>
    have hval : val32 x = patternVal x.toNat := val32_eq_patternVal ((finite_nonneg_iff x).mp ⟨hf, hs⟩)
    rw [max_eq_left (hval ▸ patternVal_nonneg _), val32_cl9, hval]
    rcases Nat.lt_or_ge 0x477F8000 x.toNat with h | h
    · rw [cl9_of_lt hn hs h, min_eq_right]
      · exact patternVal_clampMax9
      · exact patternVal_clampMax9 ▸ (patternVal_strictMono h).le
    · rw [cl9_of_le hn hs h, min_eq_left ((patternVal_le_clampMax9_iff _).mpr h)]

/-- Settles O28: the four rows of R71, and the bounds of the clamped pattern. -/
theorem channelClamp : Obligations.ChannelClamp := fun x =>
  ⟨cl9_of_isNaN32, fun _ hs => cl9_of_sign32 hs, cl9_of_lt, cl9_of_le, (cl9_finite_nonneg x).2,
    (cl9_finite_nonneg x).1, val32_cl9_nonneg x, val32_cl9_le x, val32_cl9_of_finite⟩

/-! ## The shared exponent (R72) -/

theorem floor9_toNat : Config.floor9.toNat = 0x37800000 := rfl

section
variable (r g b : Lane)

theorem cl9_toNat_le_packMax9 {x : Lane} (hx : x ∈ [r, g, b]) : (cl9 x).toNat ≤ packMax9 r g b := by
  simp only [List.mem_cons, List.not_mem_nil, or_false] at hx
  unfold packMax9
  rcases hx with rfl | rfl | rfl <;> omega

/-- The maximum is the floor or the pattern of a clamped channel. -/
theorem packMax9_eq_floor_or_channel :
    packMax9 r g b = 0x37800000 ∨ ∃ x ∈ [r, g, b], packMax9 r g b = (cl9 x).toNat := by
  simp only [packMax9, floor9_toNat, List.mem_cons, List.not_mem_nil, or_false, exists_eq_or_imp, exists_eq_left]
  omega

/-- The maximum lies between the floor and the clamp maximum. -/
theorem packMax9_bounds : 0x37800000 ≤ packMax9 r g b ∧ packMax9 r g b ≤ 0x477F8000 := by
  have hfloor : 0x37800000 ≤ packMax9 r g b := le_max_of_le_right (le_max_right _ _)
  rcases packMax9_eq_floor_or_channel r g b with h | ⟨x, -, h⟩
  · omega
  · have := cl9_toNat_le x
    omega

/-- The stored exponent plus 111 is the exponent field of the rounded maximum: the subtraction of R72 does not cut. -/
theorem packExp9_add : packExp9 r g b + 111 = (packMax9 r g b + 0x4000) / 2 ^ 23 := by
  have := packMax9_bounds r g b
  simp only [packExp9, Config.addend9]
  omega

theorem packExp9_le : packExp9 r g b ≤ 31 := by
  have := packMax9_bounds r g b
  have := packExp9_add r g b
  omega

/-! ## The mantissas (R73, R76) -/

theorem isRNE_packMantissa9 (E : ℕ) (x : Lane) :
    IsRNE (val32 (cl9 x) * (2 : ℚ) ^ (24 - (E : ℤ))) (packMantissa9 E x) := by
  rw [val32_of_nonneg (cl9_finite_nonneg x).1 (cl9_finite_nonneg x).2]
  exact isRNE_rne _ _

/-- Every clamped channel is below 511.5 units of the shared exponent, carry or not. -/
theorem packMantissa9_le {x : Lane} (hx : x ∈ [r, g, b]) : packMantissa9 (packExp9 r g b) x ≤ 511 := by
  have hle := cl9_toNat_le_packMax9 r g b hx
  have hexp := packExp9_add r g b
  refine isRNE_le (isRNE_packMantissa9 _ x) ?_
  rw [val32_cl9]
  refine (scaled_patternVal_lt (a := 0x4000) (e := packExp9 r g b + 111) (j := -15) (by norm_num) (by norm_num)
    (by omega) (by omega) (by omega)).trans_eq ?_
  norm_num

/-- A clamped channel that is the maximum is at least 255.75 units of the shared exponent, carry or not. -/
theorem le_packMantissa9 {x : Lane} (hx : (cl9 x).toNat = packMax9 r g b) :
    256 ≤ packMantissa9 (packExp9 r g b) x := by
  have hexp := packExp9_add r g b
  refine le_isRNE (isRNE_packMantissa9 _ x) ?_
  rw [val32_cl9]
  refine lt_of_lt_of_le ?_ (le_scaled_patternVal (a := 0x4000) (e := packExp9 r g b + 111) (j := -16) (by norm_num)
    (by norm_num) (by omega) (by omega) (by omega))
  norm_num

/-- With every clamped channel below `2^-16` the exponent is 0. -/
theorem packExp9_of_below_floor (h : ∀ y ∈ [r, g, b], (cl9 y).toNat < 0x37800000) : packExp9 r g b = 0 := by
  have hmax : packMax9 r g b = 0x37800000 := by
    rcases packMax9_eq_floor_or_channel r g b with hfloor | ⟨x, hx, heq⟩
    · exact hfloor
    · have := (packMax9_bounds r g b).1
      have := h x hx
      omega
  have := packExp9_add r g b
  omega

/-- With every clamped channel below `2^-16` every mantissa is at most 256. -/
theorem packMantissa9_le_of_below_floor (h : ∀ y ∈ [r, g, b], (cl9 y).toNat < 0x37800000) {x : Lane}
    (hx : x ∈ [r, g, b]) : packMantissa9 (packExp9 r g b) x ≤ 256 := by
  have hlt : val32 (cl9 x) < (2 : ℚ) ^ (-16 : ℤ) := by
    rw [val32_cl9, show (2 : ℚ) ^ (-16 : ℤ) = patternVal 0x37800000 by norm_num [patternVal]]
    exact patternVal_strictMono (h x hx)
  refine isRNE_le (isRNE_packMantissa9 _ x) ?_
  rw [packExp9_of_below_floor r g b h]
  norm_num at hlt ⊢
  linarith

/-! ## The word (R74) and its fields -/

theorem packRgb9e5_e_toNat : (packRgb9e5 r g b).e.toNat = packExp9 r g b := by
  have := packExp9_le r g b
  rw [packRgb9e5, BitVec.toNat_ofNat, Nat.mod_eq_of_lt (by omega)]

/-- No mantissa wraps in its field. -/
theorem mantissa_field_toNat {x : Lane} (hx : x ∈ [r, g, b]) :
    (BitVec.ofNat 9 (packMantissa9 (packExp9 r g b) x)).toNat = packMantissa9 (packExp9 r g b) x := by
  have := packMantissa9_le r g b hx
  rw [BitVec.toNat_ofNat, Nat.mod_eq_of_lt (by omega)]

/-- The channels paired with the fields they pack to. -/
theorem channels_zip_fields :
    [(r, (packRgb9e5 r g b).r), (g, (packRgb9e5 r g b).g), (b, (packRgb9e5 r g b).b)] =
      [r, g, b].map fun x => (x, BitVec.ofNat 9 (packMantissa9 (packExp9 r g b) x)) := rfl

end

/-- Settles O29: the word of R74 with the exponent of R72 and the mantissas of R73. -/
theorem packRgb9e5Result : Obligations.PackRgb9e5Result := by
  intro r g b s
  refine ⟨packExp9 r g b, packMantissa9 (packExp9 r g b) r, packMantissa9 (packExp9 r g b) g,
    packMantissa9 (packExp9 r g b) b, ?_, packExp9_add r g b, packExp9_le r g b, packMantissa9_le r g b (by simp),
    packMantissa9_le r g b (by simp), packMantissa9_le r g b (by simp), isRNE_packMantissa9 _ r,
    isRNE_packMantissa9 _ g, isRNE_packMantissa9 _ b⟩
  rw [Laws.exec_eq_present, resultOf, Machine.packRgb9e5Result, Texel.busOfW9_eq_append]
  rfl

/-- Settles O30: the exponent and the mantissas fit their fields, and the largest channel is normalised (R76). -/
theorem packRgb9e5Ranges : Obligations.PackRgb9e5Ranges := by
  intro r g b
  refine ⟨packExp9_le r g b, fun x => packMantissa9_le r g b, ?_, fun hlow => ⟨?_, ?_⟩⟩
  · rw [channels_zip_fields, List.forall_mem_map]
    intro x hx hmax hfloor
    have hmx : (cl9 x).toNat = packMax9 r g b := by
      refine le_antisymm (cl9_toNat_le_packMax9 r g b hx) ?_
      rcases packMax9_eq_floor_or_channel r g b with h | ⟨y, hy, h⟩
      · exact h ▸ hfloor
      · exact h ▸ hmax y hy
    rw [mantissa_field_toNat r g b hx]
    exact ⟨le_packMantissa9 r g b hmx, packMantissa9_le r g b hx⟩
  · rw [packRgb9e5, packExp9_of_below_floor r g b hlow]
    rfl
  · rw [channels_zip_fields, List.forall_mem_map]
    intro x hx
    rw [mantissa_field_toNat r g b hx]
    refine ⟨?_, packMantissa9_le_of_below_floor r g b hlow hx⟩
    simpa [packExp9_of_below_floor r g b hlow] using isRNE_packMantissa9 (packExp9 r g b) x

/-- Settles O31: an unpacked channel is its mantissa in units of `2^(E-24)`, of which rounding is off by half a one at
most (R78). -/
theorem rgb9e5RoundTripBound : Obligations.Rgb9e5RoundTripBound := by
  intro r g b
  change ∀ p ∈ [r, g, b].map fun x => (x, BitVec.ofNat 9 (packMantissa9 (packExp9 r g b) x),
    f32bits (channelVal9 (packRgb9e5 r g b).e (BitVec.ofNat 9 (packMantissa9 (packExp9 r g b) x)))), _
  rw [List.forall_mem_map]
  intro x hx
  obtain ⟨-, -, hval⟩ := Texel.isPattern32_channelVal9 (packRgb9e5 r g b).e
    (BitVec.ofNat 9 (packMantissa9 (packExp9 r g b) x))
  refine ⟨hval, ?_⟩
  rw [hval, value9, mantissa_field_toNat r g b hx, packRgb9e5_e_toNat,
    show (packExp9 r g b : ℤ) - 25 = packExp9 r g b - 24 - 1 by ring]
  refine abs_mul_zpow_sub_le ?_
  rw [neg_sub]
  exact (isRNE_packMantissa9 _ x).1

end Sys2Proof.Proofs.PackRgb9e5
end

section
/-! PACK_RGBE8 (spec/40_pack.md R80 to R89): the maximum and its exponent byte, the mantissas and their ranges, and the
distance of an unpacked texel from the channels. -/

namespace Sys2Proof.Proofs.PackRgbe8

open Sys2Proof.Machine Sys2Proof.Safety Sys2Proof.Proofs.Float32 Sys2Proof.Proofs.Rounding

/-! ## One channel (R81, R84) -/

theorem packKeyE8_of_nonneg {x : Lane} (hn : isNaN32 x = false) (hs : sign32 x = false) : packKeyE8 x = x.toNat := by
  simp [packKeyE8, hn, hs]

theorem packMantissaE8_of_isNaN32 (e : ℕ) {x : Lane} (hn : isNaN32 x = true) : packMantissaE8 e x = 0 := by
  simp [packMantissaE8, f32val, hn]

theorem packMantissaE8_of_sign32 (e : ℕ) {x : Lane} (hs : sign32 x = true) : packMantissaE8 e x = 0 := by
  unfold packMantissaE8 f32val
  rw [hs]
  split_ifs <;> rfl

theorem packMantissaE8_infinity (e : ℕ) : packMantissaE8 e 0x7F800000 = 255 := by
  rw [packMantissaE8, show f32val 0x7F800000 = .inf false from rfl]
  rfl

theorem packMantissaE8_of_finite (e : ℕ) {x : Lane} (hf : finite32 x) (hs : sign32 x = false) :
    packMantissaE8 e x = min 255 (rha (mag32 x) (136 - (e : ℤ))) := by
  simp [packMantissaE8, Laws.f32val_of_finite hf, hs]

theorem packMantissaE8_le (e : ℕ) (x : Lane) : packMantissaE8 e x ≤ 255 := by
  unfold packMantissaE8
  split
  · omega
  · split <;> omega
  · split
    · omega
    · exact min_le_left _ _

theorem mantissa_field_toNat (e : ℕ) (x : Lane) : (BitVec.ofNat 8 (packMantissaE8 e x)).toNat = packMantissaE8 e x := by
  have := packMantissaE8_le e x
  rw [BitVec.toNat_ofNat, Nat.mod_eq_of_lt (by omega)]

theorem isRHA_channel {x : Lane} (hf : finite32 x) (hs : sign32 x = false) (k : ℤ) :
    IsRHA (val32 x * (2 : ℚ) ^ k) (rha (mag32 x) k) := by
  rw [val32_of_nonneg hf hs]
  exact isRHA_rha _ _

/-- The mantissa of every channel is the one R81 and R84 give. -/
theorem channelE8_packMantissaE8 (e : ℕ) (x : Lane) : ChannelE8 e x (packMantissaE8 e x) :=
  ⟨packMantissaE8_of_isNaN32 e, fun _ hs => packMantissaE8_of_sign32 e hs,
    fun hx => hx ▸ packMantissaE8_infinity e,
    fun hf hs => ⟨_, isRHA_channel hf hs _, packMantissaE8_of_finite e hf hs⟩⟩

/-! ## The maximum and the exponent byte (R82, R83) -/

section
variable (r g b : Lane)

theorem floorE8_toNat : Config.floorE8.toNat = 0x00800000 := rfl

/-- `0x00800000` is the pattern of `2^-126` (R8). -/
theorem patternVal_floorE8 : patternVal 0x00800000 = (2 : ℚ) ^ (-126 : ℤ) := by norm_num [patternVal]

theorem floor_le_packMaxE8 : 0x00800000 ≤ packMaxE8 r g b := le_max_of_le_right (le_max_right _ _)

theorem packKeyE8_le_packMaxE8 {x : Lane} (hx : x ∈ [r, g, b]) : packKeyE8 x ≤ packMaxE8 r g b := by
  simp only [List.mem_cons, List.not_mem_nil, or_false] at hx
  unfold packMaxE8
  rcases hx with rfl | rfl | rfl <;> omega

/-- A channel that takes part in the maximum is at most it. -/
theorem toNat_le_packMaxE8 {x : Lane} (hx : x ∈ [r, g, b]) (hn : isNaN32 x = false) (hs : sign32 x = false) :
    x.toNat ≤ packMaxE8 r g b :=
  packKeyE8_of_nonneg hn hs ▸ packKeyE8_le_packMaxE8 r g b hx

/-- The maximum is the floor or what a channel counts as. -/
theorem packMaxE8_eq_floor_or_key :
    packMaxE8 r g b = 0x00800000 ∨ ∃ x ∈ [r, g, b], packMaxE8 r g b = packKeyE8 x := by
  simp only [packMaxE8, floorE8_toNat, List.mem_cons, List.not_mem_nil, or_false, exists_eq_or_imp, exists_eq_left]
  omega

theorem isMaxE8_packMaxE8 : IsMaxE8 r g b (packMaxE8 r g b) := by
  refine ⟨floor_le_packMaxE8 r g b, fun x hx hn hs => toNat_le_packMaxE8 r g b hx hn hs, ?_⟩
  refine (packMaxE8_eq_floor_or_key r g b).imp_right fun ⟨x, hx, hkey⟩ => ⟨x, hx, ?_⟩
  have hfloor := floor_le_packMaxE8 r g b
  rw [hkey] at hfloor ⊢
  unfold packKeyE8 at hfloor ⊢
  split_ifs at hfloor ⊢ with hskip
  · omega
  · obtain ⟨hn, hs⟩ : isNaN32 x = false ∧ sign32 x = false := by simpa using hskip
    exact ⟨hn, hs, rfl⟩

theorem packErE8_eq : packErE8 r g b = (packMaxE8 r g b + 0x8000) / 2 ^ 23 := rfl

theorem one_le_packErE8 : 1 ≤ packErE8 r g b := by
  have := floor_le_packMaxE8 r g b
  have := packErE8_eq r g b
  omega

theorem packExpE8_of_le (h : packErE8 r g b ≤ 253) : packExpE8 r g b = packErE8 r g b + 2 := by
  simp only [packExpE8]
  omega

theorem packRgbe8_e_toNat : (packRgbe8 r g b).e.toNat = packExpE8 r g b := by
  have : packExpE8 r g b ≤ 255 := min_le_right _ _
  rw [packRgbe8, BitVec.toNat_ofNat, Nat.mod_eq_of_lt (by omega)]

/-- With every channel below `2^-126` the exponent byte is 3. -/
theorem packExpE8_of_below_floor (h : ∀ y ∈ [r, g, b], packKeyE8 y < 0x00800000) : packExpE8 r g b = 3 := by
  have hmax : packMaxE8 r g b = 0x00800000 := by
    rcases packMaxE8_eq_floor_or_key r g b with hfloor | ⟨x, hx, heq⟩
    · exact hfloor
    · have := floor_le_packMaxE8 r g b
      have := h x hx
      omega
  rw [packExpE8, packErE8_eq, hmax]
  rfl

/-! ## Normalisation (R87) -/

/-- Where the exponent does not saturate, no channel that takes part in the maximum is an infinity. -/
theorem toNat_lt_of_packErE8_le (her : packErE8 r g b ≤ 253) {x : Lane} (hx : x ∈ [r, g, b])
    (hn : isNaN32 x = false) (hs : sign32 x = false) : x.toNat < 0x7F800000 := by
  have := toNat_le_packMaxE8 r g b hx hn hs
  have := packErE8_eq r g b
  omega

/-- Every channel is below 255.5 units of the shared exponent, carry or not: no clamp acts. -/
theorem rha_channel_le (her : packErE8 r g b ≤ 253) {x : Lane} (hx : x ∈ [r, g, b]) (hn : isNaN32 x = false)
    (hs : sign32 x = false) : rha (mag32 x) (136 - (packExpE8 r g b : ℤ)) ≤ 255 := by
  have hlt := toNat_lt_of_packErE8_le r g b her hx hn hs
  have hle := toNat_le_packMaxE8 r g b hx hn hs
  have hone := one_le_packErE8 r g b
  have heq := packErE8_eq r g b
  have hexp := packExpE8_of_le r g b her
  refine isRHA_le (isRHA_channel ((finite_nonneg_iff x).mpr hlt).1 hs _) ?_
  rw [val32_eq_patternVal hlt]
  refine (scaled_patternVal_lt (a := 0x8000) (e := packErE8 r g b) (j := -16) (by norm_num) (by norm_num) hone
    (by omega) (by omega)).trans_eq ?_
  norm_num

/-- A channel that is the maximum is at least 127.75 units of the shared exponent, and at the floor 128. -/
theorem le_rha_channel (her : packErE8 r g b ≤ 253) {x : Lane} (hs : sign32 x = false) (hlt : x.toNat < 0x7F800000)
    (hmx : x.toNat = packMaxE8 r g b) : 128 ≤ rha (mag32 x) (136 - (packExpE8 r g b : ℤ)) := by
  have hone := one_le_packErE8 r g b
  have heq := packErE8_eq r g b
  have hexp := packExpE8_of_le r g b her
  refine le_isRHA (isRHA_channel ((finite_nonneg_iff x).mpr hlt).1 hs _) ?_
  rw [val32_eq_patternVal hlt]
  rcases hone.eq_or_lt with hfloor | hnorm
  · have hmin : patternVal 0x00800000 ≤ patternVal x.toNat :=
      patternVal_strictMono.monotone (hmx ▸ floor_le_packMaxE8 r g b)
    rw [patternVal_floorE8] at hmin
    rw [hexp, ← hfloor]
    norm_num at hmin ⊢
    linarith
  · refine le_trans ?_ (le_scaled_patternVal (a := 0x8000) (e := packErE8 r g b) (j := -17) (by norm_num)
      (by norm_num) hnorm (by omega) (by omega))
    norm_num

/-- Where the exponent does not saturate, the mantissa is the rounded channel itself. -/
theorem packMantissaE8_eq_rha (her : packErE8 r g b ≤ 253) {x : Lane} (hx : x ∈ [r, g, b]) (hf : finite32 x)
    (hs : sign32 x = false) :
    packMantissaE8 (packExpE8 r g b) x = rha (mag32 x) (136 - (packExpE8 r g b : ℤ)) := by
  rw [packMantissaE8_of_finite _ hf hs,
    min_eq_right (rha_channel_le r g b her hx (not_isNaN32_of_finite hf) hs)]

/-- With every channel below `2^-126` the channels that take part in the maximum are finite and below the floor. -/
theorem toNat_lt_floor (h : ∀ y ∈ [r, g, b], packKeyE8 y < 0x00800000) {x : Lane} (hx : x ∈ [r, g, b])
    (hn : isNaN32 x = false) (hs : sign32 x = false) : x.toNat < 0x00800000 :=
  packKeyE8_of_nonneg hn hs ▸ h x hx

/-- A channel below `2^-126` is at most 128 units of `2^-133`. -/
theorem rha_subnormal_le {x : Lane} (hs : sign32 x = false) (hlt : x.toNat < 0x00800000) :
    rha (mag32 x) 133 ≤ 128 := by
  have hfin : x.toNat < 0x7F800000 := by omega
  refine isRHA_le (isRHA_channel ((finite_nonneg_iff x).mpr hfin).1 hs _) ?_
  have hval := patternVal_strictMono hlt
  rw [patternVal_floorE8] at hval
  rw [val32_eq_patternVal hfin]
  norm_num at hval ⊢
  linarith

/-- At the exponent byte 3 a finite channel below `2^-126` has the mantissa `RHA(v * 2^133)`. -/
theorem packMantissaE8_subnormal {x : Lane} (hs : sign32 x = false) (hlt : x.toNat < 0x00800000) :
    packMantissaE8 3 x = rha (mag32 x) 133 := by
  have hfin : x.toNat < 0x7F800000 := by omega
  have hle := rha_subnormal_le hs hlt
  rw [packMantissaE8_of_finite 3 ((finite_nonneg_iff x).mpr hfin).1 hs]
  exact min_eq_right (hle.trans (by norm_num))

/-- The channels paired with the fields they pack to. -/
theorem channels_zip_fields :
    [(r, (packRgbe8 r g b).r), (g, (packRgbe8 r g b).g), (b, (packRgbe8 r g b).b)] =
      [r, g, b].map fun x => (x, BitVec.ofNat 8 (packMantissaE8 (packExpE8 r g b) x)) := rfl

/-- A channel that is not below any other one, nor below the floor, is the maximum. -/
theorem toNat_eq_packMaxE8 {x : Lane} (hx : x ∈ [r, g, b]) (hn : isNaN32 x = false) (hs : sign32 x = false)
    (hmax : ∀ y ∈ [r, g, b], packKeyE8 y ≤ x.toNat) (hfloor : 0x00800000 ≤ x.toNat) :
    x.toNat = packMaxE8 r g b := by
  refine le_antisymm (toNat_le_packMaxE8 r g b hx hn hs) ?_
  rcases packMaxE8_eq_floor_or_key r g b with h | ⟨y, hy, h⟩
  · exact h ▸ hfloor
  · exact h ▸ hmax y hy

end

/-- Settles O35: the texel of R85 with the exponent byte of R83 and the mantissas of R84. -/
theorem packRgbe8Result : Obligations.PackRgbe8Result := by
  intro r g b s
  refine ⟨packMaxE8 r g b, packExpE8 r g b, packMantissaE8 (packExpE8 r g b) r, packMantissaE8 (packExpE8 r g b) g,
    packMantissaE8 (packExpE8 r g b) b, ?_, isMaxE8_packMaxE8 r g b, rfl, ?_, channelE8_packMantissaE8 _ r,
    channelE8_packMantissaE8 _ g, channelE8_packMantissaE8 _ b⟩
  · rw [Laws.exec_eq_present, resultOf, Machine.packRgbe8Result, Texel.busOfE8_eq_append]
    rfl
  · have := one_le_packErE8 r g b
    rw [packExpE8]
    omega

/-- Settles O36: the two halves of R87, the maximum at or above the floor and every channel below it. -/
theorem packRgbe8Normalises : Obligations.PackRgbe8Normalises := by
  intro r g b
  refine ⟨fun her => ?_, fun hlow => ⟨?_, ?_⟩⟩
  · rw [channels_zip_fields, List.forall_mem_map]
    intro x hx hn hs
    refine ⟨rha_channel_le r g b her hx hn hs, fun hmax hfloor => ?_⟩
    have hlt := toNat_lt_of_packErE8_le r g b her hx hn hs
    rw [mantissa_field_toNat, packMantissaE8_eq_rha r g b her hx ((finite_nonneg_iff x).mpr hlt).1 hs]
    exact ⟨le_rha_channel r g b her hs hlt (toNat_eq_packMaxE8 r g b hx hn hs hmax hfloor),
      rha_channel_le r g b her hx hn hs⟩
  · rw [packRgbe8, packExpE8_of_below_floor r g b hlow]
    rfl
  · rw [channels_zip_fields, List.forall_mem_map, packExpE8_of_below_floor r g b hlow]
    intro x hx
    rw [mantissa_field_toNat]
    cases hn : isNaN32 x
    case true => exact ⟨by rw [packMantissaE8_of_isNaN32 3 hn]; norm_num, fun h => absurd h (by simp)⟩
    cases hs : sign32 x
    case true => exact ⟨by rw [packMantissaE8_of_sign32 3 hs]; norm_num, fun _ h => absurd h (by simp)⟩
    have hlt := toNat_lt_floor r g b hlow hx hn hs
    rw [packMantissaE8_subnormal hs hlt]
    exact ⟨rha_subnormal_le hs hlt,
      fun _ _ => isRHA_channel ((finite_nonneg_iff x).mpr (by omega)).1 hs _⟩

/-- Settles O37: an unpacked channel is its mantissa in units of `2^(e-136)`, of which rounding is off by half a one at
most where no clamp acts (R89). -/
theorem rgbe8RoundTripBound : Obligations.Rgbe8RoundTripBound := by
  intro r g b her
  change ∀ p ∈ [r, g, b].map fun x => (x, f32bits (channelValE8 (packRgbe8 r g b).e
    (BitVec.ofNat 8 (packMantissaE8 (packExpE8 r g b) x)))), _
  rw [List.forall_mem_map]
  intro x hx hf hs
  obtain ⟨-, -, hval⟩ := Texel.isPattern32_channelValE8 (packRgbe8 r g b).e
    (BitVec.ofNat 8 (packMantissaE8 (packExpE8 r g b) x))
  rw [hval, valueE8, mantissa_field_toNat, packMantissaE8_eq_rha r g b her hx hf hs, packRgbe8_e_toNat,
    show (packExpE8 r g b : ℤ) - 137 = packExpE8 r g b - 136 - 1 by ring]
  refine abs_mul_zpow_sub_le ?_
  rw [neg_sub]
  exact abs_sub_le_of_isRHA (isRHA_channel hf hs _)

end Sys2Proof.Proofs.PackRgbe8
end

section
/-! UNPACK_RGB9E5 and UNPACK_RGBE8 (spec/41_unpack.md R100 to R107): the presented patterns, and that no RGB9E5 channel
is a binary32 subnormal (R102). -/

namespace Sys2Proof.Proofs.Unpack

open Sys2Proof.Machine Sys2Proof.Safety Sys2Proof.Proofs.Float32

/-- `2^-126` is the least normal value: only zero and the subnormals below it have the exponent field 0 (R11). -/
theorem eq_zero_or_exp32_ne_zero {v : ℚ} {x : Lane} (hx : IsPattern32 v x) (hv : v = 0 ∨ (2 : ℚ) ^ (-126 : ℤ) ≤ v) :
    x = 0 ∨ exp32 x ≠ 0 := by
  obtain ⟨hf, hs, hval⟩ := hx
  rw [val32_eq_patternVal ((finite_nonneg_iff x).mp ⟨hf, hs⟩)] at hval
  rcases hv with hzero | hnormal
  · have hnat : x.toNat = 0 := patternVal_strictMono.injective (by rw [hval, hzero]; simp [patternVal])
    exact .inl (BitVec.eq_of_toNat_eq hnat)
  · rw [← hval, ← PackRgbe8.patternVal_floorE8, patternVal_strictMono.le_iff_le] at hnormal
    have := exp32_eq_div hs
    exact .inr (by omega)

/-- A nonzero RGB9E5 channel is at least `2^-24`, far above the binary32 subnormals (R102). -/
theorem value9_eq_zero_or_normal (e : BitVec 5) (m : BitVec 9) :
    value9 e m = 0 ∨ (2 : ℚ) ^ (-126 : ℤ) ≤ value9 e m := by
  rcases Nat.eq_zero_or_pos m.toNat with hzero | hpos
  · exact .inl (by simp [value9, hzero])
  · have hm : (1 : ℚ) ≤ m.toNat := by exact_mod_cast hpos
    exact .inr <| calc
      (2 : ℚ) ^ (-126 : ℤ) ≤ (2 : ℚ) ^ ((e.toNat : ℤ) - 24) := zpow_le_zpow_right₀ one_le_two (by omega)
      _ ≤ value9 e m := le_mul_of_one_le_left (by positivity) hm

/-- An unpacked RGB9E5 channel is `+0` or normal (R102). -/
theorem f32bits_channelVal9_zero_or_normal (e : BitVec 5) (m : BitVec 9) :
    f32bits (channelVal9 e m) = 0 ∨ exp32 (f32bits (channelVal9 e m)) ≠ 0 :=
  eq_zero_or_exp32_ne_zero (Texel.isPattern32_channelVal9 e m) (value9_eq_zero_or_normal e m)

/-- Settles O39: each channel is exact in binary32, and zero or normal. -/
theorem unpackRgb9e5Result : Obligations.UnpackRgb9e5Result := by
  intro w s
  refine ⟨(unpackRgb9e5 w).r, (unpackRgb9e5 w).g, (unpackRgb9e5 w).b, Laws.exec_eq_present _ s,
    Texel.isPattern32_channelVal9 w.e w.r, Texel.isPattern32_channelVal9 w.e w.g,
    Texel.isPattern32_channelVal9 w.e w.b, ?_⟩
  change ∀ v ∈ [w.r, w.g, w.b].map fun m => f32bits (channelVal9 w.e m), _
  rw [List.forall_mem_map]
  exact fun m _ => f32bits_channelVal9_zero_or_normal w.e m

/-- Settles O40: each channel is exact in binary32, subnormal ones included (R107). -/
theorem unpackRgbe8Result : Obligations.UnpackRgbe8Result := fun t s =>
  ⟨(unpackRgbe8 t).r, (unpackRgbe8 t).g, (unpackRgbe8 t).b, Laws.exec_eq_present _ s,
    Texel.isPattern32_channelValE8 t.e t.r, Texel.isPattern32_channelValE8 t.e t.g,
    Texel.isPattern32_channelValE8 t.e t.b⟩

end Sys2Proof.Proofs.Unpack
end

section
/-! REPACK_E8_9E5 (spec/42_repack.md R120 to R122): which path a texel takes, and on the fallback which channels clamp. -/

namespace Sys2Proof.Proofs.Repack

open Sys2Proof.Machine Sys2Proof.Safety Sys2Proof.Proofs.Float32 Sys2Proof.Proofs.PackRgb9e5

/-! ## The two paths (R120) -/

theorem repackFast_iff (t : Rgbe8) : repackFast t = true ↔ 113 ≤ t.e.toNat ∧ t.e.toNat ≤ 143 := by
  simp [repackFast]

theorem repackE8To9e5_of_fast {t : Rgbe8} (hlo : 113 ≤ t.e.toNat) (hhi : t.e.toNat ≤ 143) :
    repackE8To9e5 t = repackTransplant t :=
  if_pos ((repackFast_iff t).mpr ⟨hlo, hhi⟩)

theorem repackE8To9e5_of_fallback {t : Rgbe8} (h : t.e.toNat < 113 ∨ 143 < t.e.toNat) :
    repackE8To9e5 t = packTriple9 (unpackRgbe8 t) :=
  if_neg fun hfast => by
    have := (repackFast_iff t).mp hfast
    omega

/-- An operation whose result is an RGB9E5 word presents it alone on the bus, zeros above (R55). -/
theorem exec_of_resultOf_w9 {i : Instr} {w : Rgb9e5} (h : resultOf i = legalResult (busOfW9 w)) (s : State) :
    exec i s = .next (present ⟨0#96 ++ (w.e ++ w.b ++ w.g ++ w.r), false⟩ s) := by
  rw [Laws.exec_eq_present, h, Texel.busOfW9_eq_append, legalResult]

/-! ## The fast path (R121) -/

/-- A byte shifted left by one into a 9-bit mantissa is its double. -/
theorem append_zero_eq_ofNat_double (n : BitVec 8) : n ++ 0#1 = BitVec.ofNat 9 (2 * n.toNat) := by
  refine BitVec.eq_of_toNat_eq ?_
  have := n.isLt
  rw [BitVec.toNat_append, BitVec.toNat_ofNat, BitVec.toNat_ofNat, Nat.zero_mod, Nat.or_zero, Nat.shiftLeft_eq]
  omega

/-- Settles O41: on the fast path the word is the transplanted texel, whose mantissas are the doubled bytes. -/
theorem repackFastPathResult : Obligations.RepackFastPathResult := by
  intro t s hlo hhi
  rw [exec_of_resultOf_w9 (w := repackE8To9e5 t) rfl, repackE8To9e5_of_fast hlo hhi]
  simp only [repackTransplant, append_zero_eq_ofNat_double]

/-! ## The channel clamp of an exact pattern (R71) -/

section
variable {v : ℚ} {x : Lane} (hx : IsPattern32 v x)
include hx

theorem patternVal_of_isPattern32 : patternVal x.toNat = v := by
  obtain ⟨hf, hs, hval⟩ := hx
  rw [← hval, val32_eq_patternVal ((finite_nonneg_iff x).mp ⟨hf, hs⟩)]

theorem cl9_of_isPattern32_le (hv : v ≤ 65408) : cl9 x = x := by
  rw [← patternVal_of_isPattern32 hx, patternVal_le_clampMax9_iff] at hv
  obtain ⟨hf, hs, -⟩ := hx
  exact cl9_of_le (not_isNaN32_of_finite hf) hs hv

theorem cl9_of_isPattern32_lt (hv : 65408 < v) : cl9 x = 0x477F8000 := by
  rw [← patternVal_of_isPattern32 hx, ← not_le, patternVal_le_clampMax9_iff, not_le] at hv
  obtain ⟨hf, hs, -⟩ := hx
  exact cl9_of_lt (not_isNaN32_of_finite hf) hs hv

end

/-! ## The channels of a texel on the fallback (R122) -/

section
variable {e n : BitVec 8} {x : Lane}

/-- A byte is at most 255 units of its exponent. -/
theorem valueE8_le {k : ℤ} (he : (e.toNat : ℤ) - 136 ≤ k) : valueE8 e n ≤ 255 * (2 : ℚ) ^ k := by
  have hn : (n.toNat : ℚ) ≤ 255 := by exact_mod_cast Nat.lt_succ_iff.mp n.isLt
  exact mul_le_mul hn (zpow_le_zpow_right₀ one_le_two he) (by positivity) (by norm_num)

/-- Up to `e = 144` no channel clamps: `255 * 2^8 = 65280`. -/
theorem cl9_of_exponent_le (hx : IsPattern32 (valueE8 e n) x) (he : e.toNat ≤ 144) : cl9 x = x := by
  refine cl9_of_isPattern32_le hx ((valueE8_le (k := 8) (by omega)).trans ?_)
  norm_num

/-- From `e = 145` on every byte of at least 128 clamps: `128 * 2^9 = 65536`. -/
theorem cl9_of_le_exponent (hx : IsPattern32 (valueE8 e n) x) (he : 145 ≤ e.toNat) (hn : 128 ≤ n.toNat) :
    cl9 x = 0x477F8000 := by
  refine cl9_of_isPattern32_lt hx ?_
  have hn' : (128 : ℚ) ≤ n.toNat := by exact_mod_cast hn
  calc (65408 : ℚ) < 128 * (2 : ℚ) ^ (9 : ℤ) := by norm_num
    _ ≤ valueE8 e n :=
      mul_le_mul hn' (zpow_le_zpow_right₀ one_le_two (by omega)) (by positivity) (by positivity)

/-- Up to `e = 112` every channel is below the floor `2^-16` of the maximum: `255 * 2^-24`. -/
theorem cl9_lt_floor_of_exponent_le (hx : IsPattern32 (valueE8 e n) x) (he : e.toNat ≤ 112) :
    (cl9 x).toNat < 0x37800000 := by
  rw [cl9_of_exponent_le hx (by omega), ← patternVal_strictMono.lt_iff_lt, patternVal_of_isPattern32 hx]
  refine (valueE8_le (k := -24) (by omega)).trans_lt ?_
  norm_num [patternVal]

/-- Up to `e = 112` a channel in units of the exponent 0 is `n * 2^(e-112)`. -/
theorem val32_cl9_mul_of_exponent_le (hx : IsPattern32 (valueE8 e n) x) (he : e.toNat ≤ 112) :
    val32 (cl9 x) * (2 : ℚ) ^ (24 : ℤ) = (n.toNat : ℚ) * (2 : ℚ) ^ ((e.toNat : ℤ) - 112) := by
  have ⟨_, _, hval⟩ := hx
  rw [cl9_of_exponent_le hx (by omega), hval, valueE8, mul_assoc, ← zpow_add₀ two_ne_zero,
    show (e.toNat : ℤ) - 136 + 24 = e.toNat - 112 by ring]

end

/-- The pack of three channels below the floor has the exponent 0 and mantissas rounded from `n * 2^(e-112)` (R122). -/
theorem packRgb9e5_of_exponent_le {e r g b : BitVec 8} {x y z : Lane} (he : e.toNat ≤ 112)
    (hx : IsPattern32 (valueE8 e r) x) (hy : IsPattern32 (valueE8 e g) y) (hz : IsPattern32 (valueE8 e b) z) :
    (packRgb9e5 x y z).e = 0 ∧
    IsRNE ((r.toNat : ℚ) * (2 : ℚ) ^ ((e.toNat : ℤ) - 112)) (packRgb9e5 x y z).r.toNat ∧
    IsRNE ((g.toNat : ℚ) * (2 : ℚ) ^ ((e.toNat : ℤ) - 112)) (packRgb9e5 x y z).g.toNat ∧
    IsRNE ((b.toNat : ℚ) * (2 : ℚ) ^ ((e.toNat : ℤ) - 112)) (packRgb9e5 x y z).b.toNat := by
  have hbelow : ∀ c ∈ [x, y, z], (cl9 c).toNat < 0x37800000 := by
    simp only [List.forall_mem_cons, List.not_mem_nil, false_implies, implies_true, and_true]
    exact ⟨cl9_lt_floor_of_exponent_le hx he, cl9_lt_floor_of_exponent_le hy he, cl9_lt_floor_of_exponent_le hz he⟩
  obtain ⟨-, -, -, hlow⟩ := packRgb9e5Ranges x y z
  obtain ⟨hexp, hmantissas⟩ := hlow hbelow
  rw [← val32_cl9_mul_of_exponent_le hx he, ← val32_cl9_mul_of_exponent_le hy he,
    ← val32_cl9_mul_of_exponent_le hz he]
  exact ⟨hexp, (hmantissas (x, _) (by simp)).1, (hmantissas (y, _) (by simp)).1, (hmantissas (z, _) (by simp)).1⟩

/-- Settles O42: the fallback packs the unpacked channels, which are exact, so its bounds are those of `n * 2^(e-136)`. -/
theorem repackFallbackResult : Obligations.RepackFallbackResult := by
  intro t s hfallback
  have hr := Texel.isPattern32_channelValE8 t.e t.r
  have hg := Texel.isPattern32_channelValE8 t.e t.g
  have hb := Texel.isPattern32_channelValE8 t.e t.b
  refine ⟨_, _, _, packTriple9 (unpackRgbe8 t), ?_, exec_of_resultOf_w9 rfl s, hr, hg, hb,
    fun he => packRgb9e5_of_exponent_le he hr hg hb, fun he => ?_, fun he => ?_⟩
  · rw [← repackE8To9e5_of_fallback hfallback]
    exact exec_of_resultOf_w9 rfl s
  · exact ⟨cl9_of_exponent_le hr he.le, cl9_of_exponent_le hg he.le, cl9_of_exponent_le hb he.le⟩
  · exact ⟨cl9_of_le_exponent hr he, cl9_of_le_exponent hg he, cl9_of_le_exponent hb he⟩

end Sys2Proof.Proofs.Repack
end

section
/-! Binary16 patterns (spec/00_scope.md R11) and `NARROW16` (spec/43_half.md R145): the value of a pattern from its
fields, the model's narrowing as the rounding of R145, and that a value binary16 has narrows to its own pattern. -/

namespace Sys2Proof.Proofs.Float16

open Sys2Proof.Machine Sys2Proof.Safety Sys2Proof.Proofs.Rounding

/-! ## The fields of a pattern (R11) -/

theorem exp16_eq (h : Half) : exp16 h = h.toNat / 2 ^ 10 % 2 ^ 5 := by
  simp [exp16, BitVec.extractLsb'_toNat, Nat.shiftRight_eq_div_pow]

theorem frac16_eq (h : Half) : frac16 h = h.toNat % 2 ^ 10 := by simp [frac16]

/-- The exponent and fraction fields are the low 15 bits. -/
theorem fields16_eq_mod (h : Half) : exp16 h * 2 ^ 10 + frac16 h = h.toNat % 2 ^ 15 := by
  rw [exp16_eq, frac16_eq]
  omega

theorem masked_eq_infinity_iff (h : Half) : h &&& 0x7FFF = 0x7C00 ↔ exp16 h = 31 ∧ frac16 h = 0 := by
  have hfields := fields16_eq_mod h
  have hfrac := Laws.frac16_lt h
  have hmask : (h &&& 0x7FFF).toNat = h.toNat % 2 ^ 15 := Nat.and_two_pow_sub_one_eq_mod h.toNat 15
  have hinf : (0x7C00 : Half).toNat = 31 * 2 ^ 10 := rfl
  rw [← BitVec.toNat_inj, hmask, hinf]
  omega

theorem expField16_of_exp16 {h : Half} (hexp : exp16 h = 31) : h.extractLsb' 10 5 = 0x1F#5 :=
  BitVec.eq_of_toNat_eq hexp

theorem fracField16_of_frac16 {h : Half} (hfrac : frac16 h = 0) : h.extractLsb' 0 10 = 0#10 :=
  BitVec.eq_of_toNat_eq hfrac

theorem exp16_of_isNaN16 {h : Half} (hn : isNaN16 h = true) : exp16 h = 31 := by
  simp only [isNaN16, Bool.and_eq_true, beq_iff_eq] at hn
  exact hn.1

theorem f16val_of_isNaN16 {h : Half} (hn : isNaN16 h = true) : f16val h = .nan := if_pos hn

theorem f16val_of_infinity {h : Half} (hexp : exp16 h = 31) (hfrac : frac16 h = 0) :
    f16val h = .inf (sign16 h) := by
  simp [f16val, isNaN16, hexp, hfrac]

/-- A NaN, an infinity or a finite pattern (R11). -/
theorem isNaN16_or_infinity_or_finite16 (h : Half) :
    isNaN16 h = true ∨ (exp16 h = 31 ∧ frac16 h = 0) ∨ finite16 h := by
  simp only [isNaN16, Bool.and_eq_true, beq_iff_eq, bne_iff_ne, finite16]
  omega

/-- A finite magnitude has at most 11 significant bits, none below `2^-24` and none above `2^15` (R141). -/
theorem mag16_bounds {h : Half} (hf : finite16 h) :
    (mag16 h).sig < 2 ^ 11 ∧ -24 ≤ (mag16 h).exp ∧ (mag16 h).exp ≤ 5 := by
  have := Laws.frac16_lt h
  have := Laws.exp16_lt h
  have : exp16 h ≠ 31 := hf
  unfold mag16
  split
  · exact ⟨by dsimp only; omega, by norm_num⟩
  · exact ⟨by dsimp only; omega, by dsimp only; omega, by dsimp only; omega⟩

/-! ## The model's narrowing is that of R145 -/

/-- `scaledLog2` is the base-two logarithm of the value, rounded down. -/
theorem scaledVal_binade {q : Scaled} (hq : q.sig ≠ 0) :
    (2 : ℚ) ^ scaledLog2 q ≤ scaledVal q ∧ scaledVal q < (2 : ℚ) ^ (scaledLog2 q + 1) := by
  have hlo : (2 : ℚ) ^ q.sig.log2 ≤ q.sig := by exact_mod_cast Nat.log2_self_le hq
  have hhi : (q.sig : ℚ) < (2 : ℚ) ^ (q.sig.log2 + 1) := by exact_mod_cast Nat.lt_log2_self
  rw [scaledLog2, add_right_comm, zpow_add₀ two_ne_zero, zpow_add₀ two_ne_zero, scaledVal]
  exact ⟨mul_le_mul_of_nonneg_right (by exact_mod_cast hlo) (by positivity),
    mul_lt_mul_of_pos_right (by exact_mod_cast hhi) (by positivity)⟩

/-- The overflow test of `narrow16` without a division. -/
theorem narrow16_overflow_iff (q : Scaled) : 65520 * scaledDen q 0 ≤ scaledNum q 0 ↔ 65520 ≤ scaledVal q := by
  have hden : (0 : ℚ) < scaledDen q 0 := by exact_mod_cast Laws.scaledDen_pos q 0
  have hval := scaledVal_mul_zpow_mul_scaledDen q 0
  rw [zpow_zero, mul_one] at hval
  rw [← mul_le_mul_iff_left₀ hden, hval]
  exact_mod_cast Iff.rfl

/-- The underflow test of `narrow16` without a division. -/
theorem narrow16_underflow_iff (q : Scaled) : scaledNum q 14 < scaledDen q 14 ↔ scaledVal q < (2 : ℚ) ^ (-14 : ℤ) := by
  have hden : (0 : ℚ) < scaledDen q 14 := by exact_mod_cast Laws.scaledDen_pos q 14
  have hunit : (2 : ℚ) ^ (-14 : ℤ) * (2 : ℚ) ^ (14 : ℤ) * scaledDen q 14 = scaledDen q 14 := by norm_num
  have hpos : (0 : ℚ) < (2 : ℚ) ^ (14 : ℤ) * scaledDen q 14 := by positivity
  rw [← mul_lt_mul_iff_left₀ hpos, ← mul_assoc, ← mul_assoc, hunit, scaledVal_mul_zpow_mul_scaledDen]
  exact_mod_cast Iff.rfl

/-- The number of a pattern with a clear sign bit, from its fields. -/
theorem toNat_append_fields {e f : ℕ} (he : e < 2 ^ 5) (hf : f < 2 ^ 10) :
    (0#1 ++ BitVec.ofNat 5 e ++ BitVec.ofNat 10 f).toNat = e * 2 ^ 10 + f := by
  have hlow : f % 2 ^ 10 < 2 ^ 10 := Nat.mod_lt _ (by norm_num)
  rw [BitVec.toNat_append, BitVec.toNat_append, BitVec.toNat_ofNat, BitVec.toNat_ofNat, BitVec.toNat_ofNat,
    ← Nat.shiftLeft_add_eq_or_of_lt hlow, Nat.mod_eq_of_lt he, Nat.mod_eq_of_lt hf]
  simp [Nat.shiftLeft_eq]

/-- The binade of a value between the underflow and the overflow bound. -/
theorem scaledLog2_bounds {q : Scaled} (hq : q.sig ≠ 0) (hlo : (2 : ℚ) ^ (-14 : ℤ) ≤ scaledVal q)
    (hhi : scaledVal q < 65520) : -14 ≤ scaledLog2 q ∧ scaledLog2 q ≤ 15 := by
  obtain ⟨hbase, hnext⟩ := scaledVal_binade hq
  have hge : (2 : ℚ) ^ (-14 : ℤ) < (2 : ℚ) ^ (scaledLog2 q + 1) := hlo.trans_lt hnext
  have hlt : (2 : ℚ) ^ scaledLog2 q < (2 : ℚ) ^ (16 : ℤ) := hbase.trans_lt (hhi.trans (by norm_num))
  rw [zpow_lt_zpow_iff_right₀ one_lt_two] at hge hlt
  omega

/-- A number of the binade `p` in units of `2^(p-10)` rounds to 11 bits, or to `2^11`; in the last binade below 65520 it
does not reach `2^11`, as 65520 is 2047.5 units there (R145). -/
theorem binade_rne_bounds {v : ℚ} {p : ℤ} {m : ℕ} (hm : IsRNE (v * (2 : ℚ) ^ (10 - p)) m) (hlo : (2 : ℚ) ^ p ≤ v)
    (hhi : v < (2 : ℚ) ^ (p + 1)) (hv : v < 65520) : 1024 ≤ m ∧ m ≤ 2048 ∧ (p = 15 → m ≤ 2047) := by
  have hunit : (0 : ℚ) < (2 : ℚ) ^ (10 - p) := by positivity
  have hge := mul_le_mul_of_nonneg_right hlo hunit.le
  have hlt := mul_lt_mul_of_pos_right hhi hunit
  rw [← zpow_add₀ two_ne_zero] at hge hlt
  rw [show p + (10 - p) = 10 by ring] at hge
  rw [show p + 1 + (10 - p) = 11 by ring] at hlt
  refine ⟨le_isRNE hm ?_, isRNE_le hm ?_, ?_⟩
  · norm_num at hge ⊢
    linarith
  · norm_num at hlt ⊢
    linarith
  · rintro rfl
    refine isRNE_le hm ?_
    norm_num
    linarith

/-- `narrow16` between the two bounds: the exponent field and the fraction of the rounded significand, where a
significand of `2^11` carries into the exponent. -/
theorem narrow16_toNat_of_normal {q : Scaled} (hlo : (2 : ℚ) ^ (-14 : ℤ) ≤ scaledVal q) (hhi : scaledVal q < 65520)
    (hq : q.sig ≠ 0) :
    ((narrow16 q).toNat : ℤ) = (scaledLog2 q + 15) * 1024 + ((rne q (10 - scaledLog2 q) : ℤ) - 1024) := by
  obtain ⟨hbase, hnext⟩ := scaledVal_binade hq
  obtain ⟨hp, hp'⟩ := scaledLog2_bounds hq hlo hhi
  obtain ⟨hm, hm', htop⟩ := binade_rne_bounds (isRNE_rne q (10 - scaledLog2 q)) hbase hnext hhi
  rw [narrow16, if_neg (mt (narrow16_overflow_iff q).mp hhi.not_ge),
    if_neg (mt (narrow16_underflow_iff q).mp hlo.not_gt)]
  dsimp only
  split
  case isTrue hcarry =>
    rw [toNat_append_fields (f := 0) (by omega) (by norm_num)]
    omega
  case isFalse hbelow =>
    rw [toNat_append_fields (by omega) (by omega)]
    omega

/-- The model's `narrow16` is `NARROW16` (R145). -/
theorem narrowed16_narrow16 (q : Scaled) : Narrowed16 (scaledVal q) (narrow16 q).toNat := by
  refine ⟨fun hover => ?_, fun hunder => ?_, fun hlo hhi => ?_⟩
  · rw [narrow16, if_pos ((narrow16_overflow_iff q).mpr hover)]
    rfl
  · have hsmall : ¬ 65520 ≤ scaledVal q := not_le.mpr (hunder.trans (by norm_num))
    have hrne := isRNE_rne q 24
    have hle : rne q 24 ≤ 1024 := isRNE_le hrne (by norm_num at hunder ⊢; linarith)
    rw [narrow16, if_neg (mt (narrow16_overflow_iff q).mp hsmall), if_pos ((narrow16_underflow_iff q).mpr hunder),
      BitVec.toNat_ofNat, Nat.mod_eq_of_lt (by omega)]
    exact hrne
  · have hq : q.sig ≠ 0 := by
      intro hzero
      norm_num [scaledVal, hzero] at hlo
    obtain ⟨hbase, hnext⟩ := scaledVal_binade hq
    exact ⟨scaledLog2 q, rne q (10 - scaledLog2 q), hbase, hnext, isRNE_rne q _, narrow16_toNat_of_normal hlo hhi hq⟩

/-! ## A value binary16 has narrows to its own pattern (R148) -/

/-- An integer rounds to itself. -/
theorem isRNE_natCast_eq {n m : ℕ} (h : IsRNE (n : ℚ) m) : m = n :=
  le_antisymm (isRNE_le h (by linarith)) (le_isRNE h (by linarith))

theorem narrowed16_subnormal {f n : ℕ} (hf : f < 2 ^ 10) (h : Narrowed16 ((f : ℚ) * (2 : ℚ) ^ (-24 : ℤ)) n) :
    n = f := by
  obtain ⟨-, hunder, -⟩ := h
  have hf' : (f : ℚ) < 1024 := by exact_mod_cast hf
  have hrne := hunder (by norm_num; linarith)
  rw [mul_assoc, ← zpow_add₀ two_ne_zero, show (-24 : ℤ) + 24 = 0 by norm_num, zpow_zero, mul_one] at hrne
  exact isRNE_natCast_eq hrne

/-- The binade of a number is the only one it lies in. -/
theorem binade_unique {v : ℚ} {p p' : ℤ} (hlo : (2 : ℚ) ^ p ≤ v) (hhi : v < (2 : ℚ) ^ (p + 1))
    (hlo' : (2 : ℚ) ^ p' ≤ v) (hhi' : v < (2 : ℚ) ^ (p' + 1)) : p = p' := by
  have hlt := hlo.trans_lt hhi'
  have hgt := hlo'.trans_lt hhi
  rw [zpow_lt_zpow_iff_right₀ one_lt_two] at hlt hgt
  omega

/-- The normal magnitude of exponent field `e` lies in the binade `e - 15`. -/
theorem normal16_binade {e f : ℕ} (hf : f < 2 ^ 10) :
    (2 : ℚ) ^ ((e : ℤ) - 15) ≤ (2 ^ 10 + f : ℕ) * (2 : ℚ) ^ ((e : ℤ) - 25) ∧
      (2 ^ 10 + f : ℕ) * (2 : ℚ) ^ ((e : ℤ) - 25) < (2 : ℚ) ^ ((e : ℤ) - 15 + 1) := by
  have hsig : (2 : ℚ) ^ (10 : ℤ) ≤ (2 ^ 10 + f : ℕ) := by norm_num
  have hsig' : ((2 ^ 10 + f : ℕ) : ℚ) < (2 : ℚ) ^ (11 : ℤ) := by exact_mod_cast (by omega : 2 ^ 10 + f < 2 ^ 11)
  rw [show (e : ℤ) - 15 + 1 = 11 + (e - 25) by ring, show (e : ℤ) - 15 = 10 + (e - 25) by ring,
    zpow_add₀ two_ne_zero, zpow_add₀ two_ne_zero]
  exact ⟨mul_le_mul_of_nonneg_right hsig (by positivity), mul_lt_mul_of_pos_right hsig' (by positivity)⟩

theorem narrowed16_normal {e f n : ℕ} (he : 1 ≤ e) (he' : e ≤ 30) (hf : f < 2 ^ 10)
    (h : Narrowed16 (((2 ^ 10 + f : ℕ) : ℚ) * (2 : ℚ) ^ ((e : ℤ) - 25)) n) : n = e * 2 ^ 10 + f := by
  obtain ⟨-, -, hnormal⟩ := h
  obtain ⟨hbase, hnext⟩ := normal16_binade (e := e) hf
  have hsig : ((2 ^ 10 + f : ℕ) : ℚ) ≤ 2047 := by exact_mod_cast (by omega : 2 ^ 10 + f ≤ 2047)
  have hover : (2 ^ 10 + f : ℕ) * (2 : ℚ) ^ ((e : ℤ) - 25) < 65520 := calc
    _ ≤ 2047 * (2 : ℚ) ^ (5 : ℤ) :=
      mul_le_mul hsig (zpow_le_zpow_right₀ one_le_two (by omega)) (by positivity) (by norm_num)
    _ < 65520 := by norm_num
  have hunder : (2 : ℚ) ^ (-14 : ℤ) ≤ (2 ^ 10 + f : ℕ) * (2 : ℚ) ^ ((e : ℤ) - 25) :=
    (zpow_le_zpow_right₀ one_le_two (by omega)).trans hbase
  obtain ⟨p, m, hlo, hhi, hm, hn⟩ := hnormal hunder hover
  obtain rfl := binade_unique hlo hhi hbase hnext
  rw [mul_assoc, ← zpow_add₀ two_ne_zero, show (e : ℤ) - 25 + (10 - (e - 15)) = 0 by ring, zpow_zero, mul_one] at hm
  have := isRNE_natCast_eq hm
  omega

/-- A finite half's magnitude narrows to the half's low 15 bits. -/
theorem narrowed16_mag16 {h : Half} (hf : finite16 h) {n : ℕ} (hn : Narrowed16 (scaledVal (mag16 h)) n) :
    n = h.toNat % 2 ^ 15 := by
  have hfrac := Laws.frac16_lt h
  have hexp := Laws.exp16_lt h
  have hfin : exp16 h ≠ 31 := hf
  have hfields := fields16_eq_mod h
  unfold mag16 scaledVal at hn
  split at hn
  case isTrue hzero =>
    have := narrowed16_subnormal hfrac hn
    omega
  case isFalse hpos =>
    have := narrowed16_normal (by omega) (by omega) hfrac hn
    omega

end Sys2Proof.Proofs.Float16
end

section
/-! H2F (spec/43_half.md R140 to R142) and what F2H makes of its results (R148). -/

namespace Sys2Proof.Proofs.HalfConv

open Sys2Proof.Machine Sys2Proof.Safety Sys2Proof.Proofs.Float16

/-! ## A binary32 pattern from its fields (R11) -/

section
variable (s : BitVec 1) (e : BitVec 8) (f : BitVec 23)

theorem signField32_append : (s ++ e ++ f).extractLsb' 31 1 = s := by
  ext i hi
  grind

theorem sign32_append : sign32 (s ++ e ++ f) = s.getLsbD 0 := by
  grind [sign32]

theorem exp32_append : exp32 (s ++ e ++ f) = e.toNat := by
  have hfield : (s ++ e ++ f).extractLsb' 23 8 = e := by
    ext i hi
    grind
  rw [exp32, hfield]

theorem frac32_append : frac32 (s ++ e ++ f) = f.toNat := by
  have hfield : (s ++ e ++ f).extractLsb' 0 23 = f := by
    ext i hi
    grind
  rw [frac32, hfield]

/-- The fields as the disjoint bits R141 and R142 write. -/
theorem append_eq_or : s ++ e ++ f = s.setWidth 32 <<< 31 ||| (e.setWidth 32 <<< 23 ||| f.setWidth 32) := by
  ext i hi
  grind

end

/-! ## The fields of a half -/

section
variable (h : Half)

theorem signField16_append : h.extractLsb' 15 1 ++ h.extractLsb' 0 15 = h := by
  ext i hi
  grind

theorem fields16_append : h.extractLsb' 15 1 ++ h.extractLsb' 10 5 ++ h.extractLsb' 0 10 = h := by
  ext i hi
  grind

theorem signField16_getLsbD : (h.extractLsb' 15 1).getLsbD 0 = sign16 h := by
  simp [sign16]

theorem signField16_setWidth : (h.extractLsb' 15 1).setWidth 32 = (h >>> 15).setWidth 32 := by
  ext i hi
  grind

theorem fracField16_setWidth : (h.extractLsb' 0 10).setWidth 32 = (h &&& 0x3FF).setWidth 32 := by
  refine BitVec.eq_of_toNat_eq ?_
  have hmask : (h &&& 0x3FF).toNat = h.toNat % 2 ^ 10 := Nat.and_two_pow_sub_one_eq_mod h.toNat 10
  rw [BitVec.toNat_setWidth, BitVec.toNat_setWidth, hmask, BitVec.extractLsb'_toNat, Nat.shiftRight_zero]

/-- The fraction of a widened NaN: the half's fraction on top, its bit 9 forced (R142). -/
def quietFrac32 : BitVec 23 := 1#1 ++ h.extractLsb' 0 9 ++ 0#13

theorem quietFrac32_setWidth :
    (quietFrac32 h).setWidth 32 = BitVec.twoPow 32 22 ||| (h &&& 0x3FF).setWidth 32 <<< 13 := by
  rw [← fracField16_setWidth, quietFrac32]
  ext i hi
  grind

theorem quietFrac32_toNat_ne_zero : (quietFrac32 h).toNat ≠ 0 := by
  intro hzero
  have hbit : (quietFrac32 h).getLsbD 22 = true := by
    grind [quietFrac32]
  simp [BitVec.eq_of_toNat_eq (y := 0#23) hzero] at hbit

end

/-! ## The three cases of the widening (R140) -/

section
variable {h : Half}

theorem widen_of_isNaN16 (hn : isNaN16 h = true) : widen h = h.extractLsb' 15 1 ++ 0xFF#8 ++ quietFrac32 h := by
  simp only [widen, f16val_of_isNaN16 hn, quietFrac32]
  ext i hi
  grind

theorem widen_of_infinity (hexp : exp16 h = 31) (hfrac : frac16 h = 0) :
    widen h = h.extractLsb' 15 1 ++ 0xFF#8 ++ 0#23 := by
  simp only [widen, f16val_of_infinity hexp hfrac]

theorem widen_of_finite16 (hf : finite16 h) :
    widen h = h.extractLsb' 15 1 ++ (f32bits (mag16 h)).extractLsb' 23 8 ++ (f32bits (mag16 h)).extractLsb' 0 23 := by
  simp only [widen, Laws.f16val_of_finite hf]
  ext i hi
  grind

/-- A finite half's magnitude is exact in binary32 (R141). -/
theorem isPattern32_mag16 (hf : finite16 h) : IsPattern32 (scaledVal (mag16 h)) (f32bits (mag16 h)) := by
  obtain ⟨hsig, hlo, hhi⟩ := mag16_bounds hf
  refine Float32.isPattern32_f32bits (by omega) (by omega) fun hne => ?_
  have := (Nat.log2_lt hne).mpr hsig
  simp only [scaledLog2]
  omega

/-- The widened finite half: finite, of the same sign and of an equal magnitude (R141). -/
theorem widen_fields_of_finite16 (hf : finite16 h) :
    finite32 (widen h) ∧ sign32 (widen h) = sign16 h ∧ scaledVal (mag32 (widen h)) = scaledVal (mag16 h) := by
  obtain ⟨hfin, hs, hval⟩ := isPattern32_mag16 hf
  have hexp : exp32 (widen h) = exp32 (f32bits (mag16 h)) := by rw [widen_of_finite16 hf, exp32_append]; rfl
  have hfrac : frac32 (widen h) = frac32 (f32bits (mag16 h)) := by rw [widen_of_finite16 hf, frac32_append]; rfl
  have hmag : mag32 (widen h) = mag32 (f32bits (mag16 h)) := by rw [mag32, hexp, hfrac, mag32]
  refine ⟨?_, ?_, ?_⟩
  · rwa [finite32, hexp]
  · rw [widen_of_finite16 hf, sign32_append, signField16_getLsbD]
  · rw [hmag, ← Float32.val32_of_nonneg hfin hs, hval]

theorem val32_widen (hf : finite16 h) : val32 (widen h) = val16 h := by
  obtain ⟨hfin, hs, hmag⟩ := widen_fields_of_finite16 hf
  simp only [val32, val16, Laws.f32val_of_finite hfin, Laws.f16val_of_finite hf, hs, fvalRat, hmag]

theorem signField32_widen (h : Half) : (widen h).extractLsb' 31 1 = h.extractLsb' 15 1 := by
  rcases isNaN16_or_infinity_or_finite16 h with hn | ⟨hexp, hfrac⟩ | hf
  · rw [widen_of_isNaN16 hn, signField32_append]
  · rw [widen_of_infinity hexp hfrac, signField32_append]
  · rw [widen_of_finite16 hf, signField32_append]

end

/-- H2F of a half is what R141 and R142 say. -/
theorem widened_widen (h : Half) : Widened h (widen h) := by
  refine ⟨fun hn => ?_, fun hinf => ?_, fun hf => ?_⟩
  · rw [widen_of_isNaN16 hn, append_eq_or, signField16_setWidth, quietFrac32_setWidth, BitVec.or_assoc,
      ← BitVec.or_assoc (BitVec.setWidth 32 0xFF#8 <<< 23)]
    rfl
  · obtain ⟨hexp, hfrac⟩ := (masked_eq_infinity_iff h).mp hinf
    rw [widen_of_infinity hexp hfrac, append_eq_or, signField16_setWidth]
    rfl
  · obtain ⟨hfin, hs, -⟩ := widen_fields_of_finite16 hf
    exact ⟨hfin, hs, val32_widen hf⟩

/-- Settles O46: each slot holds its widened half, alpha like the others. -/
theorem h2fResult : Obligations.H2fResult := fun r g b a s =>
  ⟨widen r, widen g, widen b, widen a, Laws.exec_eq_present _ s, widened_widen r, widened_widen g, widened_widen b,
    widened_widen a⟩

/-! ## The three cases of the narrowing (R144) -/

section
variable {x : Lane}

theorem narrow_of_isNaN32 (hn : isNaN32 x = true) :
    narrow x = x.extractLsb' 31 1 ++ 0x1F#5 ++ 1#1 ++ x.extractLsb' 13 9 := by
  simp only [narrow, f32val, if_pos hn]

theorem narrow_of_infinity (hexp : exp32 x = 255) (hfrac : frac32 x = 0) :
    narrow x = x.extractLsb' 31 1 ++ 0x1F#5 ++ 0#10 := by
  simp [narrow, f32val, isNaN32, hexp, hfrac]

theorem narrow_of_finite32 (hf : finite32 x) :
    narrow x = x.extractLsb' 31 1 ++ (narrow16 (mag32 x)).extractLsb' 0 15 := by
  simp only [narrow, Laws.f32val_of_finite hf]

end

/-! ## Narrowing a widened half (R148) -/

section
variable {h : Half}

theorem narrow_widen_of_infinity (hexp : exp16 h = 31) (hfrac : frac16 h = 0) : narrow (widen h) = h := by
  have hwiden := widen_of_infinity hexp hfrac
  have hexp' : exp32 (widen h) = 255 := by rw [hwiden, exp32_append]; rfl
  have hfrac' : frac32 (widen h) = 0 := by rw [hwiden, frac32_append]; rfl
  rw [narrow_of_infinity hexp' hfrac', signField32_widen, ← expField16_of_exp16 hexp, ← fracField16_of_frac16 hfrac,
    fields16_append]

/-- The rounding of R145 gives back the half's low bits, as the widened magnitude has the half's value. -/
theorem narrow_widen_of_finite16 (hf : finite16 h) : narrow (widen h) = h := by
  obtain ⟨hfin, -, hmag⟩ := widen_fields_of_finite16 hf
  have hlow : (narrow16 (mag32 (widen h))).toNat = h.toNat % 2 ^ 15 :=
    narrowed16_mag16 hf (hmag ▸ narrowed16_narrow16 (mag32 (widen h)))
  have hfield : (narrow16 (mag32 (widen h))).extractLsb' 0 15 = h.extractLsb' 0 15 := by
    refine BitVec.eq_of_toNat_eq ?_
    rw [BitVec.extractLsb'_toNat, hlow, BitVec.extractLsb'_toNat, Nat.shiftRight_zero, Nat.shiftRight_zero,
      Nat.mod_mod]
  rw [narrow_of_finite32 hfin, signField32_widen, hfield, signField16_append]

theorem narrow_widen_of_isNaN16 (hn : isNaN16 h = true) : narrow (widen h) = h ||| 0x0200 := by
  have hwiden := widen_of_isNaN16 hn
  have hexp : exp32 (widen h) = 255 := by rw [hwiden, exp32_append]; rfl
  have hfrac : frac32 (widen h) ≠ 0 := by rw [hwiden, frac32_append]; exact quietFrac32_toNat_ne_zero h
  have hn' : isNaN32 (widen h) = true := by simp [isNaN32, hexp, hfrac]
  have hpayload : (widen h).extractLsb' 13 9 = h.extractLsb' 0 9 := by
    rw [hwiden, quietFrac32]
    ext i hi
    grind
  have hquiet : (0x0200 : Half) = BitVec.twoPow 16 9 := rfl
  rw [narrow_of_isNaN32 hn', signField32_widen, hpayload, ← expField16_of_exp16 (exp16_of_isNaN16 hn), hquiet]
  ext i hi
  grind

end

/-- Settles O49: every half that is no NaN is exact in binary32 and so comes back, a NaN comes back quiet; the least
binary32 subnormal narrows to zero. -/
theorem halfRoundTrip : Obligations.HalfRoundTrip := by
  refine ⟨fun h hn => ?_, fun h => narrow_widen_of_isNaN16, 1, by decide⟩
  rcases isNaN16_or_infinity_or_finite16 h with hnan | ⟨hexp, hfrac⟩ | hf
  · exact absurd hnan (by simp [hn])
  · exact narrow_widen_of_infinity hexp hfrac
  · exact narrow_widen_of_finite16 hf

end Sys2Proof.Proofs.HalfConv
end

section
/-! No exceptions (spec/60_exceptions.md R170): an operation's result is a legal one, and a cycle always ends. -/

namespace Sys2Proof.Proofs.Exceptions

open Sys2Proof.Machine

theorem resultOf_eq_legalResult (i : Instr) : resultOf i = legalResult (resultOf i).dst :=
  congrArg (Result.mk (resultOf i).dst) (Laws.resultOf_illegal i)

theorem exec_eq_present_legalResult (i : Instr) (s : State) :
    exec i s = .next (present (legalResult (resultOf i).dst) s) := by
  rw [← resultOf_eq_legalResult, Laws.exec_eq_present]

/-- Settles O8: an operation presents its own `dst` with `illegal = 0`, and a step is one cycle, whatever is on the
ports. -/
theorem everyOperationCompletes : Obligations.EveryOperationCompletes :=
  ⟨fun i s => ⟨(resultOf i).dst, exec_eq_present_legalResult i s⟩, fun s => ⟨_, Laws.step_eq_runCycle s⟩⟩

end Sys2Proof.Proofs.Exceptions
end

section
/-! The clock cycle as a function (spec/10_state.md R27 to R29): the next state of a step, a run as its iterate, and
what one cycle does to the ports, the stages and the captured results. -/

namespace Sys2Proof.Proofs.Cycle

open Sys2Proof.Machine Sys2Proof.Safety

/-- What stands at the input of stage 1: `in_valid` and `EXEC(op, src)` (R28). -/
def stageInput (s : State) : Stage := ⟨s.ports.inValid, execFn s.ports.op s.ports.src⟩

/-- The state a step answers. -/
def nextState (s : State) : State := runCycle (stageInput s) s

theorem step_eq_nextState (s : State) : step s = .next (nextState s) := Laws.step_eq_runCycle s

theorem step_eq_next_iff {s t : State} : step s = .next t ↔ nextState s = t := by
  rw [step_eq_nextState, Host.Outcome.next.injEq]

/-- A run never stops: `k` cycles are the `k`-fold iterate of one. -/
theorem run_eq_iterate (k : ℕ) (s : State) : Host.Core.run core k s = .next (nextState^[k] s) := by
  induction k generalizing s with
  | zero => rfl
  | succ k ih =>
    have hstep : core.step s = .next (nextState s) := step_eq_nextState s
    simp only [Host.Core.run, hstep]
    exact ih (nextState s)

/-! ## The stages -/

/-- The shift, by the recursion of the pipeline: each stage takes what stood before it. -/
theorem shiftStages_cons_eq (p x : Stage) (xs : List Stage) : shiftStages p (x :: xs) = p :: shiftStages x xs := rfl

theorem lastStage_cons (p x : Stage) (xs : List Stage) : lastStage p (x :: xs) = lastStage x xs := by
  rw [lastStage, List.getLastD_cons, lastStage]

theorem lastStage_of_getLast? {pipe : List Stage} {d : Stage} (h : pipe.getLast? = some d) (p : Stage) :
    lastStage p pipe = d := by
  simp [lastStage, List.getLastD_eq_getLast?, h]

/-- With stages the outputs do not depend on what is presented (R28). -/
theorem lastStage_of_ne_nil {pipe : List Stage} (h : pipe ≠ []) (p q : Stage) :
    lastStage p pipe = lastStage q pipe := by
  obtain ⟨x, xs, rfl⟩ := List.exists_cons_of_ne_nil h
  rw [lastStage_cons, lastStage_cons]

/-- Without stages a reset edge has nothing to clear (R23). -/
theorem runCycle_pipe_of_no_reset {p : Stage} {s : State} (h : s.pipe ≠ [] → s.ports.rst = false) :
    (runCycle p s).pipe = shiftStages p s.pipe := by
  rw [Laws.runCycle_pipe]
  cases hpipe : s.pipe with
  | nil => cases s.ports.rst <;> rfl
  | cons x xs => simp [h (by simp [hpipe])]

theorem runCycle_pipe_length (p : Stage) (s : State) : (runCycle p s).pipe.length = s.pipe.length := by
  rw [Laws.runCycle_pipe]
  split <;> simp

theorem nextState_pipe_length (s : State) : (nextState s).pipe.length = s.pipe.length := runCycle_pipe_length _ s

/-- After a reset edge every stage is empty (R29). -/
theorem nextState_pipe_empty_of_reset {s : State} (h : s.ports.rst = true) :
    ∀ st ∈ (nextState s).pipe, st.valid = false := by
  rw [nextState, Laws.runCycle_pipe, if_pos h]
  exact Laws.freshStages_valid _ _

/-- What is in a stage after a cycle is empty, was presented or was in a stage before. -/
theorem mem_nextState_pipe {s : State} {st : Stage} (h : st ∈ (nextState s).pipe) :
    st.valid = false ∨ st = stageInput s ∨ st ∈ s.pipe := by
  cases hrst : s.ports.rst with
  | true => exact .inl (nextState_pipe_empty_of_reset hrst st h)
  | false =>
    rw [nextState, runCycle_pipe_of_no_reset fun _ => hrst] at h
    exact .inr (Laws.mem_shiftStages h)

/-! ## The queue of the host's inputs -/

/-- Either the next cycle's inputs and queue are the queue, or the host idles (R201; log 2). -/
theorem nextState_inputs (s : State) :
    (nextState s).ports :: (nextState s).host = s.host ∨
      s.host = [] ∧ (nextState s).host = [] ∧ (nextState s).ports.rst = false ∧
        (nextState s).ports.inValid = false := by
  simp only [nextState, Laws.runCycle_ports, Laws.runCycle_host]
  cases hhost : s.host with
  | nil => exact .inr ⟨rfl, rfl, rfl, rfl⟩
  | cons p ps => exact .inl rfl

/-- No reset edge in the next `k + 1` cycles: none in this one, and none in the `k` after it. -/
theorem no_reset_succ {s : State} {k : ℕ} (h : ∀ p ∈ (s.ports :: s.host).take (k + 1), p.rst = false) :
    s.ports.rst = false ∧ ∀ p ∈ ((nextState s).ports :: (nextState s).host).take k, p.rst = false := by
  rw [List.take_succ_cons, List.forall_mem_cons] at h
  obtain ⟨hnow, hlater⟩ := h
  refine ⟨hnow, ?_⟩
  rcases nextState_inputs s with hqueue | ⟨-, hhost, hrst, -⟩
  · rwa [hqueue]
  · intro p hp
    rw [hhost] at hp
    rw [List.mem_singleton.mp (List.mem_of_mem_take hp), hrst]

/-- The transactions among the inputs of the `k` cycles after this one are those in the queue. -/
theorem filter_take_nextState (s : State) (k : ℕ) :
    (((nextState s).ports :: (nextState s).host).take k).filter (fun p => p.inValid) =
      (s.host.take k).filter fun p => p.inValid := by
  rcases nextState_inputs s with hqueue | ⟨hempty, hhost, -, hidle⟩
  · rw [hqueue]
  · rw [hempty, hhost]
    cases k <;> simp [hidle]

/-! ## The outputs and the captured results -/

/-- A cycle captures what the last stage holds, if anything. -/
theorem capture_eq_append (o : Stage) (rs : List Result) : capture o rs = rs ++ inFlight [o] := by
  cases h : o.valid <;> simp [capture, inFlight, h]

/-- A cycle adds no captured result or one. -/
theorem capture_eq_or (o : Stage) (rs : List Result) : capture o rs = rs ∨ ∃ r, capture o rs = rs ++ [r] := by
  cases h : o.valid
  · exact .inl (Laws.capture_empty h rs)
  · exact .inr ⟨o.result, Laws.capture_valid h rs⟩

/-- A valid last stage is driven, and captured last. -/
theorem nextState_of_valid_last {s : State} {d : Stage} (hd : lastStage (stageInput s) s.pipe = d)
    (hv : d.valid = true) :
    (nextState s).out = ⟨true, d.result.dst, d.result.illegal⟩ ∧ (nextState s).results = s.results ++ [d.result] := by
  rw [nextState, Laws.runCycle_out, Laws.runCycle_results, hd]
  exact ⟨Laws.driveOutputs_valid hv _, Laws.capture_valid hv _⟩

/-- From an empty last stage nothing is presented or captured. -/
theorem nextState_of_empty_last {s : State} {d : Stage} (hd : lastStage (stageInput s) s.pipe = d)
    (hv : d.valid = false) : (nextState s).out.outValid = false ∧ (nextState s).results = s.results := by
  rw [nextState, Laws.runCycle_out, Laws.runCycle_results, hd]
  exact ⟨(Laws.driveOutputs_outValid d _).trans hv, Laws.capture_empty hv _⟩

end Sys2Proof.Proofs.Cycle
end

section
/-! The pipeline's statements (spec/10_state.md R27 to R29, spec/70_reset_and_hazards.md R190 to R200): one cycle, the
list of accepted results, and the latency. -/

namespace Sys2Proof.Proofs.Pipeline

open Sys2Proof.Machine Sys2Proof.Safety Sys2Proof.Proofs.Cycle

/-! ## One cycle -/

/-- Settles O7: the step is one cycle with `EXEC` of the ports at its input, and so is `exec`. -/
theorem stepRunsPresentedTransaction : Obligations.StepRunsPresentedTransaction := by
  intro s i hv hd
  rw [Laws.step_eq_runCycle, Laws.exec_eq_present, hv, Laws.execFn_of_transaction hd, present]

/-- Settles O10: with no stages the last stage is what is presented. -/
theorem combinationalCycle : Obligations.CombinationalCycle := by
  intro s hpipe
  have hlast : lastStage (stageInput s) s.pipe = stageInput s := by rw [hpipe, Laws.lastStage_nil]
  refine ⟨_, step_eq_nextState s, ?_, nextState_of_valid_last hlast, nextState_of_empty_last hlast⟩
  rw [← List.length_eq_zero_iff, nextState_pipe_length, hpipe, List.length_nil]

/-- Settles O11: without a reset edge the stages shift by one. -/
theorem pipelineAdvances : Obligations.PipelineAdvances := by
  intro s hpipe hrst
  have hlen : 0 < s.pipe.length := List.length_pos_iff.mpr hpipe
  have hshift : (nextState s).pipe = (stageInput s :: s.pipe).dropLast := runCycle_pipe_of_no_reset fun _ => hrst
  refine ⟨_, step_eq_nextState s, nextState_pipe_length s, ?_, fun j hj hj' => ?_, fun d hd => ?_⟩
  · rw [hshift, List.getElem?_dropLast, if_pos (by simpa using hlen)]
    rfl
  · obtain ⟨i, rfl⟩ := Nat.exists_eq_add_of_le' hj
    rw [hshift, List.getElem?_dropLast, if_pos (by simpa using hj')]
    rfl
  · have hlast := lastStage_of_getLast? hd (stageInput s)
    refine ⟨?_, nextState_of_valid_last hlast, fun hv => (nextState_of_empty_last hlast hv).2⟩
    rw [nextState, Laws.runCycle_out, Laws.driveOutputs_outValid, hlast]

theorem inFlight_of_empty {pipe : List Stage} (h : ∀ st ∈ pipe, st.valid = false) : inFlight pipe = [] := by
  simp only [inFlight, List.map_eq_nil_iff, List.filter_eq_nil_iff, List.mem_reverse]
  exact fun st hst => by simp [h st hst]

/-- Settles O12: every stage is empty after the edge, so nothing is in flight. -/
theorem resetEdgeDiscardsInFlight : Obligations.ResetEdgeDiscardsInFlight := by
  intro s _ hrst
  have hempty := nextState_pipe_empty_of_reset hrst
  refine ⟨_, step_eq_nextState s, nextState_pipe_length s, hempty, ?_, fun d hd => ?_⟩
  · rw [accepted, inFlight_of_empty hempty, List.append_nil]
  · have hlast := lastStage_of_getLast? hd (stageInput s)
    exact ⟨nextState_of_valid_last hlast, nextState_of_empty_last hlast⟩

/-- Settles O21: a shift and a reset edge both keep the number of stages. -/
theorem latencyIsFixed : Obligations.LatencyIsFixed := by
  intro s t h
  obtain rfl := step_eq_next_iff.mp h
  exact nextState_pipe_length s

/-- Settles O22: the fresh stages are empty, so nothing is in flight. -/
theorem resetState : Obligations.ResetState := by
  refine ⟨rfl, fun L => ⟨Laws.freshStages_length L 0, Laws.freshStages_valid L 0, rfl, ?_⟩⟩
  rw [accepted, Laws.resetAt_results, Laws.resetAt_pipe, inFlight_of_empty (Laws.freshStages_valid L 0)]
  rfl

/-- Settles O24: an operation is one cycle. -/
theorem operationFrame : Obligations.OperationFrame := by
  intro i s
  refine ⟨_, Laws.exec_eq_present i s, capture_eq_or _ _, rfl, fun p ps hhost => ?_, fun hhost => ?_,
    runCycle_pipe_length _ s, fun hrst => ?_⟩
  · rw [present, Laws.runCycle_ports, hhost]
    rfl
  · rw [present, Laws.runCycle_ports, hhost]
    exact ⟨rfl, rfl⟩
  · rw [present, runCycle_pipe_of_no_reset fun _ => hrst]
    cases s.pipe <;> rfl

/-- Settles O25: with stages the outputs come from the last one, and a presented transaction enters stage 1 only. -/
theorem transactionsDoNotDisturbOthers : Obligations.TransactionsDoNotDisturbOthers := by
  intro i j s hpipe
  refine ⟨_, _, Laws.exec_eq_present i s, Laws.exec_eq_present j s, ?_, ?_, rfl, rfl, rfl, ?_⟩
  · simp only [present, Laws.runCycle_out, lastStage_of_ne_nil hpipe ⟨true, resultOf i⟩ ⟨true, resultOf j⟩]
  · simp only [present, Laws.runCycle_results, lastStage_of_ne_nil hpipe ⟨true, resultOf i⟩ ⟨true, resultOf j⟩]
  · obtain ⟨x, xs, hcons⟩ := List.exists_cons_of_ne_nil hpipe
    simp only [present, Laws.runCycle_pipe, hcons, shiftStages_cons_eq]
    split <;> rfl

/-! ## The reserved codes (R171) -/

theorem execFn_illegal_iff (op : OpCode) (src : Bus) : (execFn op src).illegal = true ↔ 11 ≤ op.toNat := by
  rw [← Encoding.exists_decode_eq_reserved_iff op src]
  cases hd : decode op src with
  | transaction i => simp [Laws.execFn_of_transaction hd, Laws.resultOf_illegal]
  | reserved c => simp [Laws.execFn_of_reserved hd, reservedResult]

/-- Settles O9: `EXEC` of a code from 0xB on is the reserved result, and no operation's result is illegal. -/
theorem reservedCodeIsPresented : Obligations.ReservedCodeIsPresented := by
  refine ⟨fun s hv hop => ?_, execFn_illegal_iff⟩
  rw [Laws.step_eq_runCycle, hv, Encoding.execFn_of_eleven_le hop]
  rfl

/-! ## What holds of every result held, captured or presented -/

/-- Every valid stage holds a result with the property. -/
def StagesHold (P : Result → Prop) (pipe : List Stage) : Prop := ∀ st ∈ pipe, st.valid = true → P st.result

/-- Every result in a valid stage, captured or presented has the property: what `Sound` and `IllegalIsZero` share. -/
def ResultsHold (P : Result → Prop) (s : State) : Prop :=
  StagesHold P s.pipe ∧ (∀ r ∈ s.results, P r) ∧ (s.out.outValid = true → P ⟨s.out.dst, s.out.illegal⟩)

theorem stagesHold_of_empty {P : Result → Prop} {pipe : List Stage} (h : ∀ st ∈ pipe, st.valid = false) :
    StagesHold P pipe := fun st hst hv => absurd (h st hst) (by simp [hv])

theorem resultsHold_resetAt (P : Result → Prop) (L : ℕ) : ResultsHold P (State.resetAt L) :=
  ⟨stagesHold_of_empty (Laws.freshStages_valid L 0), by simp, by simp⟩

section
variable {P : Result → Prop} (hP : ∀ op src, P (execFn op src)) {s : State} (hpipe : StagesHold P s.pipe)
include hP hpipe

theorem stagesHold_nextState : StagesHold P (nextState s).pipe := by
  intro st hst hv
  rcases mem_nextState_pipe hst with hempty | rfl | hmem
  · exact absurd hempty (by simp [hv])
  · exact hP _ _
  · exact hpipe st hmem hv

/-- The last stage, or with no stages the presented one, holds a result with the property. -/
theorem lastStage_holds (hv : (lastStage (stageInput s) s.pipe).valid = true) :
    P (lastStage (stageInput s) s.pipe).result := by
  rcases Laws.lastStage_mem (stageInput s) s.pipe with heq | hmem
  · rw [heq]
    exact hP _ _
  · exact hpipe _ hmem hv

/-- What a cycle captures has the property. -/
theorem nextState_results_append : ∃ new, (nextState s).results = s.results ++ new ∧ ∀ r ∈ new, P r := by
  cases hv : (lastStage (stageInput s) s.pipe).valid
  case false => exact ⟨[], by simp [(nextState_of_empty_last rfl hv).2], by simp⟩
  case true =>
    refine ⟨_, (nextState_of_valid_last rfl hv).2, fun r hr => ?_⟩
    rw [List.mem_singleton.mp hr]
    exact lastStage_holds hP hpipe hv

/-- What is captured in any run has the property. -/
theorem iterate_results_append (k : ℕ) :
    ∃ later, (nextState^[k] s).results = s.results ++ later ∧ ∀ r ∈ later, P r := by
  induction k generalizing s with
  | zero => exact ⟨[], by simp, by simp⟩
  | succ k ih =>
    obtain ⟨new, hnew, hnewP⟩ := nextState_results_append hP hpipe
    obtain ⟨later, hlater, hlaterP⟩ := ih (stagesHold_nextState hP hpipe)
    refine ⟨new ++ later, ?_, fun r hr => (List.mem_append.mp hr).elim (hnewP r) (hlaterP r)⟩
    rw [Function.iterate_succ_apply, hlater, hnew, List.append_assoc]

end

/-- A property of every value of `EXEC` is kept by every step. -/
theorem resultsHold_nextState {P : Result → Prop} (hP : ∀ op src, P (execFn op src)) {s : State}
    (h : ResultsHold P s) : ResultsHold P (nextState s) := by
  obtain ⟨hpipe, hresults, -⟩ := h
  obtain ⟨new, hnew, hnewP⟩ := nextState_results_append hP hpipe
  refine ⟨stagesHold_nextState hP hpipe, fun r hr => ?_, fun hv => ?_⟩
  · rw [hnew] at hr
    exact (List.mem_append.mp hr).elim (hresults r) (hnewP r)
  · have hlast : (lastStage (stageInput s) s.pipe).valid = true := by simpa [nextState] using hv
    rw [(nextState_of_valid_last rfl hlast).1]
    exact lastStage_holds hP hpipe hlast

theorem isExecResult_execFn (op : OpCode) (src : Bus) : isExecResult (execFn op src) := ⟨op, src, rfl⟩

/-- Settles O18: `Sound` says that every result is a value of `EXEC`. -/
theorem stepKeepsSound : Obligations.StepKeepsSound := by
  intro s t hs h
  obtain rfl := step_eq_next_iff.mp h
  exact resultsHold_nextState isExecResult_execFn hs

/-- Settles O19: after reset nothing is held, captured or presented. -/
theorem resetIsSound : Obligations.ResetIsSound :=
  ⟨resultsHold_resetAt isExecResult Config.pLatency, resultsHold_resetAt isExecResult⟩

/-- Only the reserved result is illegal, and its `dst` is 0. -/
theorem execFn_dst_of_illegal (op : OpCode) (src : Bus) (h : (execFn op src).illegal = true) :
    (execFn op src).dst = 0 := by
  rw [Encoding.execFn_of_eleven_le ((execFn_illegal_iff op src).mp h)]
  rfl

/-- Settles O20: `dst = 0` where `illegal = 1` is true of every value of `EXEC`. -/
theorem stepKeepsIllegalIsZero : Obligations.StepKeepsIllegalIsZero := by
  refine ⟨fun s t hs h => ?_, fun L => resultsHold_resetAt (fun r => r.illegal = true → r.dst = 0) L⟩
  obtain rfl := step_eq_next_iff.mp h
  exact resultsHold_nextState (P := fun r => r.illegal = true → r.dst = 0) execFn_dst_of_illegal hs

/-- Settles O23: a reset edge empties the stages, so every result captured later was presented after it. -/
theorem resetMakesPowerUpIrrelevant : Obligations.ResetMakesPowerUpIrrelevant := by
  intro s t _ hrst h k u hrun
  obtain rfl := step_eq_next_iff.mp h
  have hpipe : StagesHold isExecResult (nextState s).pipe := stagesHold_of_empty (nextState_pipe_empty_of_reset hrst)
  obtain rfl : nextState^[k] (nextState s) = u := Host.Outcome.next.inj ((run_eq_iterate k _).symm.trans hrun)
  exact iterate_results_append isExecResult_execFn hpipe k

/-! ## No result is lost, repeated or reordered (R27, R195, R199) -/

/-- The stages further on hold the older results. -/
theorem inFlight_append (xs ys : List Stage) : inFlight (xs ++ ys) = inFlight ys ++ inFlight xs := by
  simp only [inFlight, List.reverse_append, List.filter_append, List.map_append]

/-- What the last stage holds leaves first, what is presented last: the shift reorders nothing. -/
theorem inFlight_shiftStages (p : Stage) (pipe : List Stage) :
    inFlight [lastStage p pipe] ++ inFlight (shiftStages p pipe) = inFlight pipe ++ inFlight [p] := by
  rw [← inFlight_append, Laws.shiftStages_append_last, ← List.singleton_append, inFlight_append]

theorem presentedResult_eq_inFlight (s : State) : presentedResult s = inFlight [stageInput s] := by
  cases h : s.ports.inValid <;> simp [presentedResult, inFlight, stageInput, h]

theorem accepted_nextState {s : State} (h : s.pipe ≠ [] → s.ports.rst = false) :
    accepted (nextState s) = accepted s ++ presentedResult s := by
  rw [accepted, nextState, Laws.runCycle_results, runCycle_pipe_of_no_reset h, capture_eq_append, List.append_assoc,
    inFlight_shiftStages, ← List.append_assoc, presentedResult_eq_inFlight, accepted]

/-- Settles O15: the captured result, the shift and the presented one make up the results accepted. -/
theorem cycleKeepsResultsInOrder : Obligations.CycleKeepsResultsInOrder := fun s h =>
  ⟨_, step_eq_nextState s, accepted_nextState h⟩

/-- Settles O16, by induction on the number of cycles: each adds the result of its own transaction. -/
theorem runRefinesExecMap : Obligations.RunRefinesExecMap := by
  intro s k h
  refine ⟨_, run_eq_iterate k s, ?_⟩
  induction k generalizing s with
  | zero => simp
  | succ k ih =>
    have hnow : s.pipe ≠ [] → s.ports.rst = false := fun hpipe => (no_reset_succ (h hpipe)).1
    have hlater : (nextState s).pipe ≠ [] →
        ∀ p ∈ ((nextState s).ports :: (nextState s).host).take k, p.rst = false := fun hpipe =>
      (no_reset_succ (h fun hnil => hpipe (List.length_eq_zero_iff.mp (by simp [nextState_pipe_length, hnil])))).2
    rw [Function.iterate_succ_apply, ih _ hlater, accepted_nextState hnow, filter_take_nextState, List.take_succ_cons,
      List.append_assoc]
    cases hv : s.ports.inValid <;> simp [presentedResult, hv]

/-! ## The latency (R27, R194) -/

/-- A valid stage `d` stages from the end is driven in the `d`-th cycle from now, by induction on `d`: each cycle moves
it on by one. Stage 0 is what is presented. -/
theorem driven_of_getElem? {st : Stage} (hv : st.valid = true) (d : ℕ) {s : State} {i : ℕ}
    (hi : (stageInput s :: s.pipe)[i]? = some st) (hd : i + d = s.pipe.length)
    (hrst : ∀ p ∈ (s.ports :: s.host).take d, p.rst = false) :
    (nextState^[d + 1] s).out = ⟨true, st.result.dst, st.result.illegal⟩ ∧
      (nextState^[d + 1] s).results.getLast? = some st.result := by
  induction d generalizing s i with
  | zero =>
    have hlast : lastStage (stageInput s) s.pipe = st := by
      rw [← Laws.shiftStages_append_last, show i = (shiftStages (stageInput s) s.pipe).length by simpa using hd,
        List.getElem?_concat_length] at hi
      exact Option.some.inj hi
    obtain ⟨hout, hresults⟩ := nextState_of_valid_last hlast hv
    exact ⟨hout, by simp [hresults]⟩
  | succ d ih =>
    obtain ⟨hnow, hlater⟩ := no_reset_succ hrst
    refine ih (s := nextState s) (i := i + 1) ?_ (by rw [nextState_pipe_length]; omega) hlater
    have hshift : (nextState s).pipe = (stageInput s :: s.pipe).dropLast := runCycle_pipe_of_no_reset fun _ => hnow
    rw [List.getElem?_cons_succ, hshift, List.getElem?_dropLast, if_pos (by simp; omega), hi]

/-- Settles O14: the presented transaction stands `P_LATENCY` stages from the end. -/
theorem resultAppearsAfterLatency : Obligations.ResultAppearsAfterLatency := by
  intro s hv hrst
  exact ⟨_, run_eq_iterate _ s, driven_of_getElem? (st := stageInput s) hv s.pipe.length (i := 0) rfl
    (Nat.zero_add _) hrst⟩

/-- The stages beyond `j + 1` were beyond `j` before the shift. -/
theorem mem_drop_shiftStages {p st : Stage} {pipe : List Stage} {j : ℕ}
    (h : st ∈ (shiftStages p pipe).drop (j + 1)) : st ∈ pipe.drop j := by
  rw [shiftStages, List.dropLast_eq_take, List.drop_take] at h
  exact List.mem_of_mem_take h

/-- If the stages beyond `j` are empty, those beyond `j + 1` are after a cycle, whatever the host does in it. -/
theorem nextState_empty_beyond {s : State} {j : ℕ} (h : ∀ st ∈ s.pipe.drop j, st.valid = false) :
    ∀ st ∈ (nextState s).pipe.drop (j + 1), st.valid = false := by
  intro st hst
  cases hrst : s.ports.rst with
  | true => exact nextState_pipe_empty_of_reset hrst st (List.mem_of_mem_drop hst)
  | false =>
    rw [nextState, runCycle_pipe_of_no_reset fun _ => hrst] at hst
    exact h st (mem_drop_shiftStages hst)

/-- With the stages beyond `j` empty nothing is driven until a result has passed them, by induction on the cycles. -/
theorem quiet_of_empty_beyond (k : ℕ) {s : State} {j : ℕ} (h : ∀ st ∈ s.pipe.drop j, st.valid = false)
    (hk : j + k < s.pipe.length) : (nextState^[k + 1] s).out.outValid = false := by
  induction k generalizing s j with
  | zero =>
    have hne : s.pipe ≠ [] := List.length_pos_iff.mp (by omega)
    have hlast := lastStage_of_getLast? (List.getLast?_eq_some_getLast hne) (stageInput s)
    refine (nextState_of_empty_last hlast (h _ ?_)).1
    have hdrop : s.pipe.drop j ≠ [] := by simpa using hk
    rw [← List.getLast_drop hdrop]
    exact List.getLast_mem _
  | succ k ih =>
    exact ih (s := nextState s) (nextState_empty_beyond h) (by rw [nextState_pipe_length]; omega)

/-- Settles O13: all stages are empty, and the first result has `P_LATENCY` of them to pass. -/
theorem quietAfterReset : Obligations.QuietAfterReset := by
  intro s hempty k hk hk'
  obtain ⟨k, rfl⟩ := Nat.exists_eq_add_of_le' hk
  exact ⟨_, run_eq_iterate _ s, quiet_of_empty_beyond k (j := 0) (by simpa using hempty) (by omega)⟩

/-! ## Unspecified data (R29, R192, 93 I2 to I4) -/

theorem stagesAgree_of_empty {x y : Stage} (hx : x.valid = false) (hy : y.valid = false) : stagesAgree x y :=
  ⟨hx.trans hy.symm, fun h => absurd hx (by simp [h])⟩

/-- The free data of fresh stages do not count. -/
theorem freshStages_agree (k n m : ℕ) : List.Forall₂ stagesAgree (freshStages n k) (freshStages m k) := by
  induction k generalizing n m with
  | zero => exact .nil
  | succ k ih => exact .cons (stagesAgree_of_empty rfl rfl) (ih _ _)

theorem stageInput_agree {s t : State} (h : portsAgree s.ports t.ports) :
    stagesAgree (stageInput s) (stageInput t) := by
  obtain ⟨-, hvalid, hop⟩ := h
  refine ⟨hvalid, fun hv => ?_⟩
  obtain ⟨hop, hsrc⟩ := hop hv
  simp only [stageInput, hop, hsrc]

theorem lastStage_agree {p q : Stage} {ps qs : List Stage} (hpq : stagesAgree p q)
    (h : List.Forall₂ stagesAgree ps qs) : stagesAgree (lastStage p ps) (lastStage q qs) := by
  induction h generalizing p q with
  | nil => exact hpq
  | cons hxy _ ih =>
    rw [lastStage_cons, lastStage_cons]
    exact ih hxy

theorem shiftStages_agree {p q : Stage} {ps qs : List Stage} (hpq : stagesAgree p q)
    (h : List.Forall₂ stagesAgree ps qs) : List.Forall₂ stagesAgree (shiftStages p ps) (shiftStages q qs) := by
  induction h generalizing p q with
  | nil => exact .nil
  | cons hxy _ ih =>
    rw [shiftStages_cons_eq, shiftStages_cons_eq]
    exact .cons hpq (ih hxy)

theorem driveOutputs_agree {x y : Stage} (h : stagesAgree x y) (n m : ℕ) :
    outputsAgree (driveOutputs x n) (driveOutputs y m) := by
  obtain ⟨hvalid, hresult⟩ := h
  refine ⟨by simp [hvalid], fun hv => ?_⟩
  rw [Laws.driveOutputs_outValid] at hv
  rw [Laws.driveOutputs_valid hv, Laws.driveOutputs_valid (hvalid ▸ hv), hresult hv]
  exact ⟨rfl, rfl⟩

theorem capture_agree {x y : Stage} (h : stagesAgree x y) (rs : List Result) : capture x rs = capture y rs := by
  obtain ⟨hvalid, hresult⟩ := h
  cases hv : x.valid
  · rw [Laws.capture_empty hv, Laws.capture_empty (hvalid ▸ hv)]
  · rw [Laws.capture_valid hv, Laws.capture_valid (hvalid ▸ hv), hresult hv]

theorem nextPorts_agree {ps qs : List Ports} (h : List.Forall₂ portsAgree ps qs) (n m : ℕ) :
    portsAgree (nextPorts n ps) (nextPorts m qs) := by
  cases h with
  | nil => exact ⟨rfl, rfl, fun hv => absurd hv (by simp [nextPorts, idlePorts])⟩
  | cons hpq _ => exact hpq

/-- Settles O17, field by field: each part of the next state reads only what the two states agree on. -/
theorem unspecifiedDataAreNeverObserved : Obligations.UnspecifiedDataAreNeverObserved := by
  rintro s t ⟨hports, hhost, hpipe, -, hresults⟩
  have hinput := stageInput_agree hports
  have hlast := lastStage_agree hinput hpipe
  refine ⟨_, _, step_eq_nextState s, step_eq_nextState t, nextPorts_agree hhost _ _, ?_, ?_,
    driveOutputs_agree hlast _ _, ?_⟩
  · simpa [nextState] using List.forall₂_drop 1 hhost
  · obtain ⟨hrst, -, -⟩ := hports
    simp only [nextState, Laws.runCycle_pipe, ← hrst, ← hpipe.length_eq]
    split
    · exact freshStages_agree _ _ _
    · exact shiftStages_agree hinput hpipe
  · simp only [nextState, Laws.runCycle_results, ← hresults]
    exact capture_agree hlast _

end Sys2Proof.Proofs.Pipeline
end

section
/-! Transactions and their encoding (spec/30_encoding.md R51 to R58): decoding an encoded transaction, and encoding a
decoded operand, which keeps the bits its format names. -/

namespace Sys2Proof.Proofs.RoundTrip

open Sys2Proof.Machine

/-- Settles O1, row by row of R53. -/
theorem opcodeMapRows : Obligations.OpcodeMapRows := fun _ =>
  ⟨rfl, rfl, rfl, rfl, rfl, rfl, rfl, rfl, rfl, rfl, rfl⟩

/-! ## Decoding what was encoded -/

theorem lane_of_one (w : Lane) : lane (0#96 ++ w) 0 = w := by
  ext i hi
  grind [lane]

/-- The decoder reads each operand field where its format's encoding put it. -/
theorem decode_encode (i : Instr) : decode (encode i).1 (encode i).2 = .transaction i := by
  cases i with
  | packRgb9e5 | packRgbe8 | f2h => exact congrArg Decoded.transaction (by simp only [encode, Laws.lane_of_four])
  | h2f | h16ToRgb9e5 | h16ToRgbe8 => exact congrArg Decoded.transaction (by simp only [encode, Laws.half_of_four])
  | unpackRgb9e5 | repack9e5ToE8 | rgb9e5ToH16 =>
    exact congrArg Decoded.transaction (by simp only [encode, lane_of_one, Laws.rgb9e5OfWord_toWord])
  | unpackRgbe8 | repackE8To9e5 =>
    exact congrArg Decoded.transaction (by simp only [encode, lane_of_one, Laws.rgbe8OfLane_toLane])

/-- Settles O2: nothing of a transaction is lost in its operand. -/
theorem decodeEncodeRoundTrip : Obligations.DecodeEncodeRoundTrip := fun i _ => decode_encode i

/-! ## Encoding what was decoded -/

theorem rgb9e5ToWord_ofWord (w : Lane) : rgb9e5ToWord (rgb9e5OfWord w) = w := by
  ext i hi
  grind [rgb9e5ToWord, rgb9e5OfWord]

theorem rgbe8ToLane_ofLane (x : Lane) : rgbe8ToLane (rgbe8OfLane x) = x := by
  ext i hi
  grind [rgbe8ToLane, rgbe8OfLane]

/-- Masking with `n` ones from bit `k` on keeps those bits. -/
theorem getLsbD_and_field {w k n : ℕ} {m : BitVec w} (hm : m.toNat = (2 ^ n - 1) * 2 ^ k) (x : BitVec w) (i : ℕ) :
    (x &&& m).getLsbD i = (x.getLsbD i && (decide (k ≤ i) && decide (i - k < n))) := by
  rw [BitVec.getLsbD_and, BitVec.getLsbD, BitVec.getLsbD, hm, Nat.testBit_mul_two_pow, Nat.testBit_two_pow_sub_one]

section
variable (x : Bus)

theorem lanes3_append : 0#32 ++ lane x 2 ++ lane x 1 ++ lane x 0 = x &&& 0x00000000FFFFFFFFFFFFFFFFFFFFFFFF := by
  ext i hi
  have hmask := getLsbD_and_field (k := 0) (n := 96) (m := 0x00000000FFFFFFFFFFFFFFFFFFFFFFFF) rfl x i
  grind [lane]

theorem lanes1_append : 0#96 ++ lane x 0 = x &&& 0x000000000000000000000000FFFFFFFF := by
  ext i hi
  have hmask := getLsbD_and_field (k := 0) (n := 32) (m := 0x000000000000000000000000FFFFFFFF) rfl x i
  grind [lane]

theorem lanes4_append : lane x 3 ++ lane x 2 ++ lane x 1 ++ lane x 0 = x &&& 0xFFFFFFFFFFFFFFFFFFFFFFFFFFFFFFFF := by
  ext i hi
  have hmask := getLsbD_and_field (k := 0) (n := 128) (m := 0xFFFFFFFFFFFFFFFFFFFFFFFFFFFFFFFF) rfl x i
  grind [lane]

theorem halves4_append :
    0#64 ++ half x 3 ++ half x 2 ++ half x 1 ++ half x 0 = x &&& 0x0000000000000000FFFFFFFFFFFFFFFF := by
  ext i hi
  have hmask := getLsbD_and_field (k := 0) (n := 64) (m := 0x0000000000000000FFFFFFFFFFFFFFFF) rfl x i
  grind [half]

end

theorem encode_of_decode {op : OpCode} {src : Bus} {i : Instr} (h : decode op src = .transaction i) :
    encode i = (op, src &&& namedBits op) := by
  unfold decode at h
  split at h
  case h_1 hop | h_2 hop =>
    cases h
    exact Prod.ext (BitVec.eq_of_toNat_eq hop.symm) (by rw [namedBits, hop]; exact lanes3_append src)
  case h_3 hop | h_6 hop | h_11 hop =>
    cases h
    refine Prod.ext (BitVec.eq_of_toNat_eq hop.symm) ?_
    rw [namedBits, hop, encode, rgb9e5ToWord_ofWord]
    exact lanes1_append src
  case h_4 hop | h_5 hop =>
    cases h
    refine Prod.ext (BitVec.eq_of_toNat_eq hop.symm) ?_
    rw [namedBits, hop, encode, rgbe8ToLane_ofLane]
    exact lanes1_append src
  case h_7 hop | h_9 hop | h_10 hop =>
    cases h
    exact Prod.ext (BitVec.eq_of_toNat_eq hop.symm) (by rw [namedBits, hop]; exact halves4_append src)
  case h_8 hop =>
    cases h
    exact Prod.ext (BitVec.eq_of_toNat_eq hop.symm) (by rw [namedBits, hop]; exact lanes4_append src)
  all_goals cases h

/-- Settles O3: the encoder puts each field back and zero into every other bit. -/
theorem encodeDecodeNamedBits : Obligations.EncodeDecodeNamedBits := fun _ _ _ => encode_of_decode

theorem encode_injective : Function.Injective encode := by
  intro i j h
  have hdecode := decode_encode i
  rw [h, decode_encode j] at hdecode
  exact (Decoded.transaction.inj hdecode).symm

theorem exists_decode_eq_transaction {op : OpCode} (h : op.toNat < 11) (src : Bus) :
    ∃ i, decode op src = .transaction i := by
  cases hd : decode op src with
  | transaction i => exact ⟨i, rfl⟩
  | reserved c => exact absurd ((Encoding.exists_decode_eq_reserved_iff op src).mp ⟨c, hd⟩) (Nat.not_le.mpr h)

/-- Settles O5: operands that agree on the named bits decode to transactions with the same encoding, and so to the same
one; a reserved code's result does not depend on the operand. -/
theorem ignoredOperandBitsDoNotMatter : Obligations.IgnoredOperandBitsDoNotMatter := by
  intro op src src' hnamed
  rcases Nat.lt_or_ge op.toNat 11 with hop | hop
  · obtain ⟨i, hi⟩ := exists_decode_eq_transaction hop src
    obtain ⟨j, hj⟩ := exists_decode_eq_transaction hop src'
    have hij : i = j := encode_injective (by rw [encode_of_decode hi, encode_of_decode hj, hnamed])
    rw [Laws.execFn_of_transaction hi, Laws.execFn_of_transaction hj, hij]
  · rw [Encoding.execFn_of_eleven_le hop, Encoding.execFn_of_eleven_le hop]

/-- Settles O6: each example is one evaluation of `EXEC`. -/
theorem workedExamples : Obligations.WorkedExamples := by
  refine ⟨?_, ?_, ?_, ?_, ?_, ?_, ?_, ?_, ?_, ?_, ?_⟩ <;> decide

end Sys2Proof.Proofs.RoundTrip
end

section
/-! The host's buffers (spec/20_memory.md R40 to R45): little-endian bytes of a number, the texel layouts, and a load
after a store. -/

namespace Sys2Proof.Proofs.Buffers

open Sys2Proof.Machine

/-! ## Little-endian bytes (D21) -/

@[simp] theorem leBytes_length (n : ℕ) : ∀ v, (leBytes n v).length = n := by
  induction n with
  | zero => intro v; rfl
  | succ n ih => intro v; simp [leBytes, ih]

/-- Reading the low `n` bytes of a number gives it modulo `256^n`. -/
theorem leNat_leBytes (n : ℕ) : ∀ v, leNat (leBytes n v) = v % 2 ^ (8 * n) := by
  induction n with
  | zero => intro v; simp [leBytes, leNat, Nat.mod_one]
  | succ n ih =>
    intro v
    rw [leBytes, leNat, ih, BitVec.toNat_ofNat, show 8 * (n + 1) = 8 + 8 * n by ring, pow_add]
    exact Nat.mod_mul.symm

theorem leNat_append (xs ys : List Byte) : leNat (xs ++ ys) = leNat xs + 2 ^ (8 * xs.length) * leNat ys := by
  induction xs with
  | nil => simp [leNat]
  | cons x xs ih =>
    rw [List.cons_append, leNat, leNat, ih, List.length_cons, show 8 * (xs.length + 1) = 8 + 8 * xs.length by ring,
      pow_add]
    ring

/-- The bytes of a bit vector of `n` bytes are those of its number. -/
theorem leNat_leBytes_toNat {n : ℕ} (x : BitVec (8 * n)) : leNat (leBytes n x.toNat) = x.toNat := by
  rw [leNat_leBytes, Nat.mod_eq_of_lt x.isLt]

/-- A concatenation's number, high part first. -/
theorem toNat_append_eq {m n : ℕ} (x : BitVec m) (y : BitVec n) : (x ++ y).toNat = y.toNat + 2 ^ n * x.toNat := by
  rw [BitVec.toNat_append, ← Nat.shiftLeft_add_eq_or_of_lt y.isLt, Nat.shiftLeft_eq]
  ring

/-! ## The texel layouts (R41 to R45) -/

theorem leNat_bytesOfRgb9e5 (w : Lane) : leNat (bytesOfRgb9e5 w) = w.toNat := by
  simp only [bytesOfRgb9e5, leNat, BitVec.extractLsb'_toNat, Nat.shiftRight_eq_div_pow]
  have := w.isLt
  omega

theorem leNat_bytesOfRgbe8 (t : Rgbe8) : leNat (bytesOfRgbe8 t) = (rgbe8ToLane t).toNat := by
  simp only [bytesOfRgbe8, leNat, rgbe8ToLane, toNat_append_eq]
  ring

theorem leNat_bytesOfRgba16f (r g b a : Half) : leNat (bytesOfRgba16f r g b a) = (busOfH4 r g b a).toNat := by
  simp only [bytesOfRgba16f, busOfH4, leNat_append, List.length_append, leBytes_length, leNat_leBytes_toNat (n := 2),
    toNat_append_eq, BitVec.toNat_ofNat, Nat.zero_mod]
  ring

theorem leNat_bytesOfFloatTriple (r g b : Lane) : leNat (bytesOfFloatTriple ⟨r, g, b⟩) = (busOfF3 r g b).toNat := by
  simp only [bytesOfFloatTriple, busOfF3, leNat_append, List.length_append, leBytes_length,
    leNat_leBytes_toNat (n := 4), toNat_append_eq, BitVec.toNat_ofNat, Nat.zero_mod]
  ring

theorem leNat_bytesOfFloat4 (r g b a : Lane) : leNat (bytesOfFloat4 r g b a) = (busOfF4 r g b a).toNat := by
  simp only [bytesOfFloat4, bytesOfFloatTriple, busOfF4, leNat_append, List.length_append, leBytes_length,
    leNat_leBytes_toNat (n := 4), toNat_append_eq]
  ring

/-- Settles O54: the bytes of each layout are those of the bus value, field by field. -/
theorem texelByteLayouts : Obligations.TexelByteLayouts := by
  refine ⟨fun w => ⟨leNat_bytesOfRgb9e5 _, ?_⟩, fun t => ⟨rfl, leNat_bytesOfRgbe8 t⟩,
    fun r g b a => ⟨by simp [bytesOfRgba16f], leNat_bytesOfRgba16f r g b a⟩,
    fun r g b => ⟨by simp [bytesOfFloatTriple], leNat_bytesOfFloatTriple r g b⟩,
    fun r g b a => ⟨by simp [bytesOfFloat4, bytesOfFloatTriple], leNat_bytesOfFloat4 r g b a⟩⟩
  have hbyte : (rgb9e5ToWord w).extractLsb' 24 8 = w.e ++ w.b.extractLsb' 6 3 := by
    ext i hi
    grind [rgb9e5ToWord]
  exact congrArg some hbyte

/-! ## A load after a store (R41 to R44) -/

section
variable {buf buf' : Buffer} {a : ℕ} {bs : List Byte} (h : writeBytes buf a bs = some buf')
include h

/-- A store that answers replaces the bytes from `a` on, inside the buffer. -/
theorem writeBytes_eq_some : a + bs.length ≤ buf.length ∧ buf' = buf.take a ++ bs ++ buf.drop (a + bs.length) := by
  unfold writeBytes at h
  split at h
  case isTrue hroom => exact ⟨hroom, (Option.some.inj h).symm⟩
  case isFalse => cases h

theorem writeBytes_length : buf'.length = buf.length := by
  obtain ⟨hroom, rfl⟩ := writeBytes_eq_some h
  simp only [List.length_append, List.length_take, List.length_drop]
  omega

theorem readBytes_writeBytes : readBytes buf' a bs.length = some bs := by
  have hlen := writeBytes_length h
  obtain ⟨hroom, hbuf⟩ := writeBytes_eq_some h
  have htake : (buf.take a).length = a := List.length_take_of_le (by omega)
  rw [readBytes, if_pos (by omega), hbuf, List.append_assoc, List.drop_left' htake, List.take_left]

theorem getElem?_writeBytes {j : ℕ} (hj : j < a ∨ a + bs.length ≤ j) : buf'[j]? = buf[j]? := by
  obtain ⟨hroom, rfl⟩ := writeBytes_eq_some h
  have htake : (buf.take a).length = a := List.length_take_of_le (by omega)
  rcases hj with hbefore | hafter
  · rw [List.append_assoc, List.getElem?_append_left (by omega), List.getElem?_take, if_pos hbefore]
  · have hstored : (buf.take a ++ bs).length = a + bs.length := by rw [List.length_append, htake]
    rw [List.getElem?_append_right (by omega), List.getElem?_drop, hstored, Nat.add_sub_of_le hafter]

end

/-- Settles O55: the bytes stored are the low bytes of the bus, and they are the ones read back. -/
theorem bufferLoadAfterStore : Obligations.BufferLoadAfterStore := by
  intro buf buf' a n x _ hstore
  have hlen := leBytes_length n x.toNat
  refine ⟨?_, writeBytes_length hstore, fun j hj => getElem?_writeBytes hstore (by rwa [hlen])⟩
  have hread := readBytes_writeBytes hstore
  rw [hlen] at hread
  rw [loadBus, hread, Option.map_some, leNat_leBytes]

end Sys2Proof.Proofs.Buffers
end

section
/-! The roundings and the pattern order as the spec states them (spec/00_scope.md R12, R13), and that a value has one
rounding and one pattern. -/

namespace Sys2Proof.Proofs.Values

open Sys2Proof.Machine Sys2Proof.Safety Sys2Proof.Proofs.Float32

/-- Settles O26: the two roundings on the exact quotient. -/
theorem roundingsAreRneAndRha : Obligations.RoundingsAreRneAndRha := fun q k =>
  ⟨Rounding.isRNE_rne q k, Rounding.isRHA_rha q k⟩

/-! ## One rounding -/

section
variable {v : ℚ} {m n : ℕ}

/-- The integer RNE gives is the only one: two different ones would both be half a one off, and neighbours. -/
theorem isRNE_unique (hm : IsRNE v m) (hn : IsRNE v n) : m = n := by
  have hle {m n : ℕ} (hm : IsRNE v m) (hn : IsRNE v n) : m ≤ n := by
    by_contra hlt
    obtain ⟨hm, hmeven⟩ := hm
    obtain ⟨hn, hneven⟩ := hn
    have hgap : (n : ℚ) + 1 ≤ m := by exact_mod_cast not_le.mp hlt
    have hhalf : (m : ℚ) - v = 1 / 2 := by linarith [(abs_le.mp hm).2, (abs_le.mp hn).1]
    have hhalf' : (n : ℚ) - v = -(1 / 2) := by linarith [(abs_le.mp hm).2, (abs_le.mp hn).1]
    have hnext : m = n + 1 := by exact_mod_cast (by linarith : (m : ℚ) = n + 1)
    have := hmeven (by rw [hhalf]; norm_num)
    have := hneven (by rw [hhalf']; norm_num)
    omega
  exact le_antisymm (hle hm hn) (hle hn hm)

theorem isRHA_unique (hm : IsRHA v m) (hn : IsRHA v n) : m = n := by
  obtain ⟨hm, hm'⟩ := hm
  obtain ⟨hn, hn'⟩ := hn
  have hlt : (m : ℚ) < n + 1 := hm.trans_lt hn'
  have hgt : (n : ℚ) < m + 1 := hn.trans_lt hm'
  exact le_antisymm (Nat.lt_succ_iff.mp (by exact_mod_cast hlt)) (Nat.lt_succ_iff.mp (by exact_mod_cast hgt))

/-- Adding an even integer moves the rounding by it. -/
theorem isRNE_add_even (hm : IsRNE v m) {a : ℕ} (ha : a % 2 = 0) : IsRNE (a + v) (a + m) := by
  have hshift : ((a + m : ℕ) : ℚ) - (a + v) = m - v := by push_cast; ring
  obtain ⟨hnear, heven⟩ := hm
  refine ⟨hshift ▸ hnear, fun hhalf => ?_⟩
  have := heven (hshift ▸ hhalf)
  omega

end

/-! ## One pattern (R12) -/

section
variable {v w : ℚ} {x y : Lane}

theorem isPattern32_of_toNat_lt (hx : x.toNat < 0x7F800000) : IsPattern32 (patternVal x.toNat) x := by
  obtain ⟨hf, hs⟩ := (finite_nonneg_iff x).mpr hx
  exact ⟨hf, hs, val32_eq_patternVal hx⟩

/-- Exact patterns order as their values. -/
theorem isPattern32_lt_iff (hx : IsPattern32 v x) (hy : IsPattern32 w y) : v < w ↔ x.toNat < y.toNat := by
  rw [← Repack.patternVal_of_isPattern32 hx, ← Repack.patternVal_of_isPattern32 hy, patternVal_strictMono.lt_iff_lt]

/-- A value has one pattern with a clear sign bit. -/
theorem isPattern32_unique (hx : IsPattern32 v x) (hy : IsPattern32 v y) : x = y := by
  refine BitVec.eq_of_toNat_eq (patternVal_strictMono.injective ?_)
  rw [Repack.patternVal_of_isPattern32 hx, Repack.patternVal_of_isPattern32 hy]

end

/-- A pattern's magnitude has at most 24 significant bits, none below `2^-149` and none above `2^127`. -/
theorem mag32_bounds {x : Lane} (hf : finite32 x) :
    (mag32 x).sig < 2 ^ 24 ∧ -149 ≤ (mag32 x).exp ∧ (mag32 x).exp ≤ 104 := by
  have := Laws.frac32_lt x
  have := Laws.exp32_lt x
  have : exp32 x ≠ 255 := hf
  unfold mag32
  split
  · exact ⟨by dsimp only; omega, by norm_num⟩
  · exact ⟨by dsimp only; omega, by dsimp only; omega, by dsimp only; omega⟩

theorem f32bits_mag32 {x : Lane} (hf : finite32 x) (hs : sign32 x = false) : f32bits (mag32 x) = x := by
  obtain ⟨hsig, hlo, hhi⟩ := mag32_bounds hf
  refine isPattern32_unique (isPattern32_f32bits hsig hlo fun hne => ?_) ⟨hf, hs, val32_of_nonneg hf hs⟩
  have := (Nat.log2_lt hne).mpr hsig
  simp only [scaledLog2]
  omega

/-- Settles O27: a pattern's value increases with its number, so a value determines its pattern. -/
theorem patternOrderIsValueOrder : Obligations.PatternOrderIsValueOrder :=
  ⟨fun _ _ ha hb hsa hsb => isPattern32_lt_iff ⟨ha, hsa, rfl⟩ ⟨hb, hsb, rfl⟩,
    fun a ha hsa => (finite_nonneg_iff a).mp ⟨ha, hsa⟩, fun _ => f32bits_mag32, fun _ => rfl⟩

end Sys2Proof.Proofs.Values
end

section
/-! Identities of the packs (spec/40_pack.md R77, R88; spec/42_repack.md R123; spec/95_test_vectors.md): non-positive
channels count as zero, and packing an unpacked RGB9E5 word, which gives the word back exactly when it is normalised. -/

namespace Sys2Proof.Proofs.PackIdentities

open Sys2Proof.Machine Sys2Proof.Safety Sys2Proof.Proofs.Float32 Sys2Proof.Proofs.Rounding Sys2Proof.Proofs.Values

/-! ## Non-positive channels -/

theorem packMantissaE8_zero (e : ℕ) : packMantissaE8 e 0 = 0 := by
  have hzero : rha (mag32 0) (136 - (e : ℤ)) = 0 := by
    refine Nat.le_zero.mp (isRHA_le (isRHA_rha _ _) ?_)
    norm_num [scaledVal, mag32, exp32, frac32]
  rw [PackRgbe8.packMantissaE8_of_finite e (x := 0) (by decide) rfl, hzero]
  rfl

section
variable {x : Lane} (hx : (isNaN32 x || sign32 x) = true)
include hx

theorem cl9_of_nonpositive : cl9 x = cl9 0 := by
  rcases Bool.or_eq_true_iff.mp hx with hn | hs
  · rw [PackRgb9e5.cl9_of_isNaN32 hn]
    rfl
  · rw [PackRgb9e5.cl9_of_sign32 hs]
    rfl

theorem packKeyE8_of_nonpositive : packKeyE8 x = packKeyE8 0 := by
  rw [packKeyE8, if_pos hx]
  rfl

theorem packMantissaE8_of_nonpositive (e : ℕ) : packMantissaE8 e x = packMantissaE8 e 0 := by
  rw [packMantissaE8_zero]
  rcases Bool.or_eq_true_iff.mp hx with hn | hs
  · exact PackRgbe8.packMantissaE8_of_isNaN32 e hn
  · exact PackRgbe8.packMantissaE8_of_sign32 e hs

end

/-- Settles O33: such a channel has the clamp, the key and the mantissa of zero. -/
theorem nonPositiveChannelsPackAsZero : Obligations.NonPositiveChannelsPackAsZero := by
  intro x y z hx
  have hcl := cl9_of_nonpositive hx
  have hkey := packKeyE8_of_nonpositive hx
  have hmant := packMantissaE8_of_nonpositive hx
  simp only [packRgb9e5, packExp9, packMax9, packMantissa9, packRgbe8, packExpE8, packErE8, packMaxE8, hcl, hkey, hmant,
    and_self]

/-! ## The fast path is an unpacking (R123 (a)) -/

theorem floatTriple_congr {r g b r' g' b' : Lane} (hr : r = r') (hg : g = g') (hb : b = b') :
    FloatTriple.mk r g b = ⟨r', g', b'⟩ := by
  rw [hr, hg, hb]

section
variable {t : Rgbe8} (hlo : 113 ≤ t.e.toNat) (hhi : t.e.toNat ≤ 143)
include hlo hhi

theorem repackTransplant_e_toNat : (repackTransplant t).e.toNat = t.e.toNat - 113 := by
  rw [repackTransplant, BitVec.toNat_ofNat, Nat.mod_eq_of_lt (by omega)]

omit hlo hhi in
theorem append_zero_toNat (n : BitVec 8) : (n ++ 0#1).toNat = 2 * n.toNat := by
  have := n.isLt
  rw [Repack.append_zero_eq_ofNat_double, BitVec.toNat_ofNat, Nat.mod_eq_of_lt (by omega)]

/-- A doubled byte at the exponent `e - 113` is the byte at `e`. -/
theorem value9_transplant (n : BitVec 8) : value9 (repackTransplant t).e (n ++ 0#1) = valueE8 t.e n := by
  rw [value9, valueE8, repackTransplant_e_toNat hlo hhi, append_zero_toNat,
    show ((t.e.toNat - 113 : ℕ) : ℤ) - 24 = t.e.toNat - 136 - 1 by omega, zpow_sub_one₀ two_ne_zero]
  push_cast
  ring

theorem unpack_repackTransplant : unpackRgb9e5 (repackTransplant t) = unpackRgbe8 t := by
  have hchannel (n : BitVec 8) :
      f32bits (channelVal9 (repackTransplant t).e (n ++ 0#1)) = f32bits (channelValE8 t.e n) := by
    have hpattern := Texel.isPattern32_channelVal9 (repackTransplant t).e (n ++ 0#1)
    rw [value9_transplant hlo hhi] at hpattern
    exact isPattern32_unique hpattern (Texel.isPattern32_channelValE8 t.e n)
  exact floatTriple_congr (hchannel t.r) (hchannel t.g) (hchannel t.b)

end

/-- Settles O43: on the fast path the word's channels are the texel's. -/
theorem repackFastPathKeepsValues : Obligations.RepackFastPathKeepsValues := by
  intro t hlo hhi
  rw [Repack.repackE8To9e5_of_fast hlo hhi, unpack_repackTransplant hlo hhi]

/-! ## Packing an unpacked RGB9E5 word -/

/-- The bound `d` short of the exponent field `e`, as a value. -/
theorem patternVal_lt_below_iff {n e d : ℕ} (he : 2 ≤ e) (hd : 1 ≤ d) (hd' : d ≤ 2 ^ 23) :
    patternVal n < ((2 ^ 24 - d : ℕ) : ℚ) * (2 : ℚ) ^ ((e : ℤ) - 151) ↔ n + d < e * 2 ^ 23 := by
  rw [← patternVal_below he hd hd', patternVal_strictMono.lt_iff_lt]
  omega

/-- The pattern UNPACK_RGB9E5 gives a mantissa (R101). -/
def channel9 (e : BitVec 5) (m : BitVec 9) : Lane := f32bits (channelVal9 e m)

section
variable (e : BitVec 5) (m : BitVec 9)

theorem isPattern32_channel9 : IsPattern32 (value9 e m) (channel9 e m) := Texel.isPattern32_channelVal9 e m

theorem patternVal_channel9 : patternVal (channel9 e m).toNat = value9 e m :=
  Repack.patternVal_of_isPattern32 (isPattern32_channel9 e m)

/-- No channel is above 65408, the value of the mantissa 511 at the exponent 31. -/
theorem value9_le : value9 e m ≤ 65408 := by
  have hm : (m.toNat : ℚ) ≤ 511 := by exact_mod_cast Nat.lt_succ_iff.mp m.isLt
  calc value9 e m ≤ 511 * (2 : ℚ) ^ (7 : ℤ) :=
        mul_le_mul hm (zpow_le_zpow_right₀ one_le_two (by omega)) (by positivity) (by norm_num)
    _ = 65408 := by norm_num

theorem cl9_channel9 : cl9 (channel9 e m) = channel9 e m :=
  Repack.cl9_of_isPattern32_le (isPattern32_channel9 e m) (value9_le e m)

/-- The rounded exponent field of R72 reaches `e + 111` with a mantissa of at least 256, as `255.75` is the bound. -/
theorem channel9_add_lt_iff : (channel9 e m).toNat + 0x4000 < (e.toNat + 111) * 2 ^ 23 ↔ m.toNat < 256 := by
  rw [← patternVal_lt_below_iff (by omega) (by norm_num) (by norm_num), patternVal_channel9, value9,
    show ((e.toNat + 111 : ℕ) : ℤ) - 151 = -16 + (e.toNat - 24) by omega, zpow_add₀ two_ne_zero, ← mul_assoc,
    mul_lt_mul_iff_left₀ (by positivity)]
  norm_num
  constructor
  · intro h
    exact_mod_cast h.trans (by norm_num : (1023 / 4 : ℚ) < 256)
  · intro h
    have hm : (m.toNat : ℚ) ≤ 255 := by exact_mod_cast Nat.lt_succ_iff.mp h
    linarith

/-- It never reaches `e + 112`, as no mantissa reaches `511.5`. -/
theorem channel9_add_lt : (channel9 e m).toNat + 0x4000 < (e.toNat + 112) * 2 ^ 23 := by
  have hm : (m.toNat : ℚ) ≤ 511 := by exact_mod_cast Nat.lt_succ_iff.mp m.isLt
  rw [← patternVal_lt_below_iff (by omega) (by norm_num) (by norm_num), patternVal_channel9, value9,
    show ((e.toNat + 112 : ℕ) : ℤ) - 151 = -15 + (e.toNat - 24) by omega, zpow_add₀ two_ne_zero, ← mul_assoc,
    mul_lt_mul_iff_left₀ (by positivity)]
  norm_num
  linarith

end

section
variable (w : Rgb9e5)

/-- The stored exponent of the packed channels of a word. -/
def repackedExp9 : ℕ := packExp9 (channel9 w.e w.r) (channel9 w.e w.g) (channel9 w.e w.b)

theorem repackedExp9_add :
    repackedExp9 w + 111 = (max (max (channel9 w.e w.r).toNat (channel9 w.e w.g).toNat)
      (max (channel9 w.e w.b).toNat 0x37800000) + 0x4000) / 2 ^ 23 := by
  rw [repackedExp9, PackRgb9e5.packExp9_add, packMax9, cl9_channel9, cl9_channel9, cl9_channel9]
  rfl

theorem repackedExp9_le : repackedExp9 w ≤ w.e.toNat := by
  have := repackedExp9_add w
  have := channel9_add_lt w.e w.r
  have := channel9_add_lt w.e w.g
  have := channel9_add_lt w.e w.b
  omega

/-- The exponent comes back exactly where a mantissa has its top bit or the exponent is the floor's. -/
theorem repackedExp9_eq_iff :
    repackedExp9 w = w.e.toNat ↔ 256 ≤ max w.r.toNat (max w.g.toNat w.b.toNat) ∨ w.e.toNat = 0 := by
  have := repackedExp9_add w
  have := repackedExp9_le w
  have := channel9_add_lt_iff w.e w.r
  have := channel9_add_lt_iff w.e w.g
  have := channel9_add_lt_iff w.e w.b
  omega

/-- Each mantissa is shifted up by what the exponent loses: nothing is rounded. -/
theorem packMantissa9_channel9 (m : BitVec 9) :
    packMantissa9 (repackedExp9 w) (channel9 w.e m) = m.toNat * 2 ^ (w.e.toNat - repackedExp9 w) := by
  have hle := repackedExp9_le w
  have hrne := PackRgb9e5.isRNE_packMantissa9 (repackedExp9 w) (channel9 w.e m)
  obtain ⟨-, -, hval⟩ := isPattern32_channel9 w.e m
  rw [cl9_channel9, hval, value9, mul_assoc, ← zpow_add₀ two_ne_zero,
    show (w.e.toNat : ℤ) - 24 + (24 - repackedExp9 w) = (w.e.toNat - repackedExp9 w : ℕ) by omega] at hrne
  exact Float16.isRNE_natCast_eq (by exact_mod_cast hrne)

theorem repacked_e_toNat : (packTriple9 (unpackRgb9e5 w)).e.toNat = repackedExp9 w :=
  PackRgb9e5.packRgb9e5_e_toNat _ _ _

/-- The mantissa field of a channel of the repacked word. -/
theorem repacked_mantissa_toNat {m : BitVec 9} (hm : m ∈ [w.r, w.g, w.b]) :
    (BitVec.ofNat 9 (packMantissa9 (repackedExp9 w) (channel9 w.e m))).toNat =
      m.toNat * 2 ^ (w.e.toNat - repackedExp9 w) := by
  rw [← packMantissa9_channel9]
  exact PackRgb9e5.mantissa_field_toNat _ _ _ (List.mem_map_of_mem (f := channel9 w.e) hm)

/-- A channel of the repacked word has the value it had. -/
theorem channel9_repacked {m : BitVec 9} (hm : m ∈ [w.r, w.g, w.b]) :
    channel9 (packTriple9 (unpackRgb9e5 w)).e (BitVec.ofNat 9 (packMantissa9 (repackedExp9 w) (channel9 w.e m))) =
      channel9 w.e m := by
  have hle := repackedExp9_le w
  have hpattern := isPattern32_channel9 (packTriple9 (unpackRgb9e5 w)).e
    (BitVec.ofNat 9 (packMantissa9 (repackedExp9 w) (channel9 w.e m)))
  rw [value9, repacked_e_toNat, repacked_mantissa_toNat w hm, Nat.cast_mul, mul_assoc, Nat.cast_pow, Nat.cast_two,
    ← zpow_natCast, ← zpow_add₀ two_ne_zero,
    show ((w.e.toNat - repackedExp9 w : ℕ) : ℤ) + (repackedExp9 w - 24) = w.e.toNat - 24 by omega] at hpattern
  exact isPattern32_unique hpattern (isPattern32_channel9 w.e m)

/-- Packing the unpacked word gives it back exactly where its exponent comes back. -/
theorem pack_unpack_eq_iff :
    packTriple9 (unpackRgb9e5 w) = w ↔ 256 ≤ max w.r.toNat (max w.g.toNat w.b.toNat) ∨ w.e.toNat = 0 := by
  rw [← repackedExp9_eq_iff]
  constructor
  · intro h
    rw [← repacked_e_toNat, h]
  · intro hexp
    have hfield {m : BitVec 9} (hm : m ∈ [w.r, w.g, w.b]) :
        BitVec.ofNat 9 (packMantissa9 (repackedExp9 w) (channel9 w.e m)) = m :=
      BitVec.eq_of_toNat_eq (by rw [repacked_mantissa_toNat w hm, hexp, Nat.sub_self, pow_zero, mul_one])
    have he : (packTriple9 (unpackRgb9e5 w)).e = w.e := BitVec.eq_of_toNat_eq (by rw [repacked_e_toNat, hexp])
    exact congr (congr (congr (congrArg Rgb9e5.mk (hfield (by simp))) (hfield (by simp))) (hfield (by simp))) he

end

/-- Settles O34: the exponent can only fall, and the mantissas rise by as much. -/
theorem packOfUnpackKeepsValues : Obligations.PackOfUnpackKeepsValues := fun w =>
  floatTriple_congr (channel9_repacked w (m := w.r) (by simp)) (channel9_repacked w (m := w.g) (by simp))
    (channel9_repacked w (m := w.b) (by simp))

/-! ## The fast path and the fallback (R123 (b), (c)) -/

/-- A channel that sets an exponent byte above the floor's has a mantissa of at least 128. -/
theorem normalisedE8_packRgbe8 {r g b : Lane} (hlo : 4 ≤ (packRgbe8 r g b).e.toNat)
    (hhi : (packRgbe8 r g b).e.toNat < 255) : normalisedE8 (packRgbe8 r g b) := by
  rw [PackRgbe8.packRgbe8_e_toNat] at hlo hhi
  have her : packErE8 r g b ≤ 253 := by
    simp only [packExpE8] at hhi
    omega
  have hexp := PackRgbe8.packExpE8_of_le r g b her
  have heq := PackRgbe8.packErE8_eq r g b
  obtain ⟨-, -, hfloor | ⟨x, hx, hn, hs, hmx⟩⟩ := PackRgbe8.isMaxE8_packMaxE8 r g b
  · omega
  · have hlt := PackRgbe8.toNat_lt_of_packErE8_le r g b her hx hn hs
    have hmant := PackRgbe8.le_rha_channel r g b her hs hlt hmx
    rw [← PackRgbe8.packMantissaE8_eq_rha r g b her hx ((finite_nonneg_iff x).mpr hlt).1 hs,
      ← PackRgbe8.mantissa_field_toNat] at hmant
    refine hmant.trans ?_
    simp only [List.mem_cons, List.not_mem_nil, or_false] at hx
    rcases hx with rfl | rfl | rfl
    · exact le_max_left _ _
    · exact le_max_of_le_right (le_max_left _ _)
    · exact le_max_of_le_right (le_max_right _ _)

/-- Settles O44: the fast path's word is normalised where the texel is, and then packing its channels gives it back. -/
theorem repackFastPathBitEquality : Obligations.RepackFastPathBitEquality := by
  refine ⟨fun t hlo hhi => ?_, fun r g b hlo hhi => normalisedE8_packRgbe8 (by omega) (by omega)⟩
  rw [Repack.repackE8To9e5_of_fast hlo hhi, ← unpack_repackTransplant hlo hhi, eq_comm, pack_unpack_eq_iff,
    repackTransplant_e_toNat hlo hhi]
  simp only [repackTransplant, append_zero_toNat, normalisedE8]
  omega

end Sys2Proof.Proofs.PackIdentities
end

section
/-! RGBE8 texels of exact channels whose exponent cannot saturate: REPACK_9E5_E8 (spec/42_repack.md R126, R127). -/

namespace Sys2Proof.Proofs.RepackE8

open Sys2Proof.Machine Sys2Proof.Safety Sys2Proof.Proofs.Float32 Sys2Proof.Proofs.PackRgbe8
open Sys2Proof.Proofs.PackIdentities

/-- An operation whose result is an RGBE8 texel presents it alone on the bus, zeros above (R55). -/
theorem exec_of_resultOf_e8 {i : Instr} {t : Rgbe8} (h : resultOf i = legalResult (busOfE8 t)) (s : State) :
    exec i s = .next (present ⟨0#96 ++ (t.e ++ t.b ++ t.g ++ t.r), false⟩ s) := by
  rw [Laws.exec_eq_present, h, Texel.busOfE8_eq_append, legalResult]

/-- A pattern below that of `2^16` has an exponent field below 143. -/
theorem toNat_lt_of_lt_two_pow {v : ℚ} {x : Lane} (hx : IsPattern32 v x) (hv : v < 65536) : x.toNat < 143 * 2 ^ 23 := by
  rw [← patternVal_strictMono.lt_iff_lt, Repack.patternVal_of_isPattern32 hx]
  norm_num [patternVal]
  exact hv

section
variable {r g b : Lane}

/-- With every channel below `2^16` the exponent byte is at most 145 (R127, R153). -/
theorem packErE8_le_of_keys_lt (h : ∀ y ∈ [r, g, b], packKeyE8 y < 143 * 2 ^ 23) : packErE8 r g b ≤ 143 := by
  have heq := packErE8_eq r g b
  rcases packMaxE8_eq_floor_or_key r g b with hfloor | ⟨y, hy, hkey⟩
  · omega
  · have := h y hy
    omega

theorem packKeyE8_of_isPattern32 {v : ℚ} {x : Lane} (hx : IsPattern32 v x) : packKeyE8 x = x.toNat := by
  obtain ⟨hf, hs, -⟩ := hx
  exact packKeyE8_of_nonneg (not_isNaN32_of_finite hf) hs

/-- Where the exponent does not saturate, an exact channel's mantissa is its rounding, unclamped. -/
theorem isRHA_packMantissaE8 (her : packErE8 r g b ≤ 253) {v : ℚ} {x : Lane} (hmem : x ∈ [r, g, b])
    (hx : IsPattern32 v x) :
    IsRHA (v * (2 : ℚ) ^ (136 - (packExpE8 r g b : ℤ))) (packMantissaE8 (packExpE8 r g b) x) := by
  obtain ⟨hf, hs, hval⟩ := hx
  rw [packMantissaE8_eq_rha r g b her hmem hf hs, ← hval]
  exact isRHA_channel hf hs _

end

theorem channel9_zero (e : BitVec 5) : channel9 e 0 = 0 := rfl

theorem packExpE8_zero : packExpE8 0 0 0 = 3 := by
  have hkey : packKeyE8 0 = 0 := rfl
  refine packExpE8_of_below_floor 0 0 0 fun y hy => ?_
  obtain rfl : y = 0 := by simpa using hy
  rw [hkey]
  norm_num

section
variable (w : Rgb9e5)

/-- The rounded exponent field of the unpacked channels of a word (R83). -/
def repackedErE8 : ℕ := packErE8 (channel9 w.e w.r) (channel9 w.e w.g) (channel9 w.e w.b)

/-- The exponent byte of the unpacked channels of a word. -/
def repackedExpE8 : ℕ := packExpE8 (channel9 w.e w.r) (channel9 w.e w.g) (channel9 w.e w.b)

/-- Every RGB9E5 channel is below `2^16`. -/
theorem repackedErE8_le : repackedErE8 w ≤ 143 := by
  have hkey (m : BitVec 9) : packKeyE8 (channel9 w.e m) < 143 * 2 ^ 23 := by
    rw [packKeyE8_of_isPattern32 (isPattern32_channel9 w.e m)]
    exact toNat_lt_of_lt_two_pow (isPattern32_channel9 w.e m) ((value9_le w.e m).trans_lt (by norm_num))
  refine packErE8_le_of_keys_lt ?_
  rw [List.forall_mem_cons, List.forall_mem_cons, List.forall_mem_singleton]
  exact ⟨hkey w.r, hkey w.g, hkey w.b⟩

/-- So the exponent byte does not saturate (R127). -/
theorem repackedExpE8_eq : repackedExpE8 w = repackedErE8 w + 2 :=
  packExpE8_of_le _ _ _ ((repackedErE8_le w).trans (by norm_num))

theorem repackedExpE8_bounds : 3 ≤ repackedExpE8 w ∧ repackedExpE8 w ≤ 145 := by
  have hlo : 1 ≤ repackedErE8 w := one_le_packErE8 _ _ _
  have hhi := repackedErE8_le w
  have heq := repackedExpE8_eq w
  omega

theorem isRHA_repacked_mantissa {m : BitVec 9} (hm : m ∈ [w.r, w.g, w.b]) :
    IsRHA (value9 w.e m * (2 : ℚ) ^ (136 - (repackedExpE8 w : ℤ)))
      (packMantissaE8 (repackedExpE8 w) (channel9 w.e m)) :=
  isRHA_packMantissaE8 ((repackedErE8_le w).trans (by norm_num)) (List.mem_map_of_mem (f := channel9 w.e) hm)
    (isPattern32_channel9 w.e m)

/-- A word without mantissas packs as three zeros. -/
theorem repackedExpE8_of_zero (hr : w.r = 0) (hg : w.g = 0) (hb : w.b = 0) : repackedExpE8 w = 3 := by
  rw [repackedExpE8, hr, hg, hb, channel9_zero, packExpE8_zero]

theorem repacked_mantissa_of_zero {m : BitVec 9} (hm : m = 0) :
    packMantissaE8 (repackedExpE8 w) (channel9 w.e m) = 0 := by
  rw [hm, channel9_zero, packMantissaE8_zero]

end

/-- Settles O45: the unpacked channels are exact and below `2^16`, so the exponent does not saturate. -/
theorem repack9e5ToE8Result : Obligations.Repack9e5ToE8Result := fun w s =>
  ⟨channel9 w.e w.r, channel9 w.e w.g, channel9 w.e w.b, _, repackedExpE8 w,
    packMantissaE8 (repackedExpE8 w) (channel9 w.e w.r), packMantissaE8 (repackedExpE8 w) (channel9 w.e w.g),
    packMantissaE8 (repackedExpE8 w) (channel9 w.e w.b), exec_of_resultOf_e8 (t := repack9e5ToE8 w) rfl s,
    isPattern32_channel9 _ _, isPattern32_channel9 _ _, isPattern32_channel9 _ _, isMaxE8_packMaxE8 _ _ _,
    repackedExpE8_eq w, (repackedExpE8_bounds w).1, (repackedExpE8_bounds w).2, packMantissaE8_le _ _,
    packMantissaE8_le _ _, packMantissaE8_le _ _, isRHA_repacked_mantissa w (by simp),
    isRHA_repacked_mantissa w (by simp), isRHA_repacked_mantissa w (by simp), fun hr hg hb =>
    ⟨repackedExpE8_of_zero w hr hg hb, repacked_mantissa_of_zero w hr, repacked_mantissa_of_zero w hg,
      repacked_mantissa_of_zero w hb⟩⟩

end Sys2Proof.Proofs.RepackE8
end

section
/-! `NARROW16` as a value (spec/43_half.md R145): the half it gives, in units of the binade it rounds in, and that no
other half is nearer. -/

namespace Sys2Proof.Proofs.Nearest16

open Sys2Proof.Machine Sys2Proof.Safety Sys2Proof.Proofs.Rounding Sys2Proof.Proofs.Float16

/-! ## The value of a binary16 pattern (R11) -/

/-- The magnitude of the finite binary16 pattern with the low 15 bits `n`; the formula goes on in the same way where `n`
is no such pattern. -/
def patternVal16 (n : ℕ) : ℚ :=
  if n < 2 ^ 10 then (n : ℚ) * (2 : ℚ) ^ (-24 : ℤ)
  else ((2 ^ 10 + n % 2 ^ 10 : ℕ) : ℚ) * (2 : ℚ) ^ (((n / 2 ^ 10 : ℕ) : ℤ) - 25)

theorem patternVal16_subnormal {n : ℕ} (h : n ≤ 2 ^ 10) : patternVal16 n = (n : ℚ) * (2 : ℚ) ^ (-24 : ℤ) := by
  rcases h.lt_or_eq with hlt | rfl
  · exact if_pos hlt
  · norm_num [patternVal16]

/-- The exponent field `e` with the significand `m`, where a significand of `2^11` has carried into the field. -/
theorem patternVal16_normal {e m : ℕ} (he : 1 ≤ e) (hm : 1024 ≤ m) (hm' : m ≤ 2048) :
    patternVal16 (e * 1024 + (m - 1024)) = (m : ℚ) * (2 : ℚ) ^ ((e : ℤ) - 25) := by
  rw [patternVal16, if_neg (by omega)]
  rcases hm'.lt_or_eq with hlt | rfl
  · rw [show 2 ^ 10 + (e * 1024 + (m - 1024)) % 2 ^ 10 = m by omega,
      show (e * 1024 + (m - 1024)) / 2 ^ 10 = e by omega]
  · rw [show 2 ^ 10 + (e * 1024 + (2048 - 1024)) % 2 ^ 10 = 1024 by omega,
      show (((e * 1024 + (2048 - 1024)) / 2 ^ 10 : ℕ) : ℤ) - 25 = e - 25 + 1 by omega, zpow_add_one₀ two_ne_zero]
    push_cast
    ring

theorem scaledVal_mag16 (h : Half) : scaledVal (mag16 h) = patternVal16 (h.toNat % 2 ^ 15) := by
  have hfields := fields16_eq_mod h
  have hfrac := Laws.frac16_lt h
  unfold mag16 patternVal16 scaledVal
  rcases Nat.eq_zero_or_pos (exp16 h) with hzero | hpos
  · rw [if_pos hzero, if_pos (by omega), show h.toNat % 2 ^ 15 = frac16 h by omega]
  · rw [if_neg hpos.ne', if_neg (by omega), show h.toNat % 2 ^ 15 % 2 ^ 10 = frac16 h by omega,
      show h.toNat % 2 ^ 15 / 2 ^ 10 = exp16 h by omega]

/-- Every half has at most 11 significant bits and none below `2^-24`. -/
theorem patternVal16_dyadic (n : ℕ) :
    ∃ (m : ℕ) (k : ℤ), patternVal16 n = (m : ℚ) * (2 : ℚ) ^ k ∧ m < 2 ^ 11 ∧ -24 ≤ k := by
  unfold patternVal16
  split
  · exact ⟨n, -24, rfl, by omega, le_rfl⟩
  · exact ⟨2 ^ 10 + n % 2 ^ 10, (n / 2 ^ 10 : ℕ) - 25, rfl, by omega, by omega⟩

theorem finite16_iff (h : Half) : finite16 h ↔ h.toNat % 2 ^ 15 < 0x7C00 := by
  have hfields := fields16_eq_mod h
  have hfrac := Laws.frac16_lt h
  have hexp := Laws.exp16_lt h
  unfold finite16
  omega

theorem val16_of_sign {h : Half} (hf : finite16 h) :
    val16 h = if sign16 h then -patternVal16 (h.toNat % 2 ^ 15) else patternVal16 (h.toNat % 2 ^ 15) := by
  rw [val16, Laws.f16val_of_finite hf, fvalRat, scaledVal_mag16]

theorem patternVal16_nonneg (n : ℕ) : 0 ≤ patternVal16 n := by
  unfold patternVal16
  split <;> positivity

theorem abs_val16 {h : Half} (hf : finite16 h) : |val16 h| = patternVal16 (h.toNat % 2 ^ 15) := by
  rw [val16_of_sign hf]
  split
  · rw [abs_neg, abs_of_nonneg (patternVal16_nonneg _)]
  · exact abs_of_nonneg (patternVal16_nonneg _)

/-! ## The shape of the rounding (R145) -/

/-- What `NARROW16` does below the overflow bound: for some unit `2^k` it gives the half of the value `m * 2^k` with
`m = RNE(v / 2^k)`. The unit is that of the binade of `v`, or that of the subnormals. -/
theorem narrowed16_shape {v : ℚ} {n : ℕ} (h : Narrowed16 v n) (hv : v < 65520) :
    ∃ (k : ℤ) (m : ℕ), n < 0x7C00 ∧ n % 2 = m % 2 ∧ patternVal16 n = (m : ℚ) * (2 : ℚ) ^ k ∧
      IsRNE (v * (2 : ℚ) ^ (-k)) m ∧ (k = -24 ∨ (2 : ℚ) ^ (k + 10) ≤ v) := by
  obtain ⟨-, hunder, hnormal⟩ := h
  rcases lt_or_ge v ((2 : ℚ) ^ (-14 : ℤ)) with hlo | hlo
  · have hrne := hunder hlo
    have hle : n ≤ 1024 := isRNE_le hrne (by norm_num at hlo ⊢; linarith)
    exact ⟨-24, n, by omega, rfl, patternVal16_subnormal hle, hrne, .inl rfl⟩
  · obtain ⟨p, m, hbase, hnext, hrne, hn⟩ := hnormal hlo hv
    obtain ⟨hm, hm', htop⟩ := binade_rne_bounds hrne hbase hnext hv
    have hp : -14 < p + 1 := (zpow_lt_zpow_iff_right₀ one_lt_two).mp (hlo.trans_lt hnext)
    have hp' : p < 16 := (zpow_lt_zpow_iff_right₀ one_lt_two).mp (hbase.trans_lt (hv.trans (by norm_num)))
    obtain ⟨e, he⟩ := Int.eq_ofNat_of_zero_le (show 0 ≤ p + 15 by omega)
    have hn' : n = e * 1024 + (m - 1024) := by omega
    refine ⟨p - 10, m, by omega, by omega, ?_, by rwa [neg_sub], .inr (by rwa [sub_add_cancel])⟩
    rw [hn', patternVal16_normal (by omega) hm hm', show (e : ℤ) - 25 = p - 10 by omega]

/-- A value with 11 significant bits, none below `2^-24`, is narrowed to a half of that value (R155). -/
theorem narrowed16_exact {n m : ℕ} {j : ℤ} (hm : m < 2 ^ 11) (hj : -24 ≤ j) (hv : (m : ℚ) * (2 : ℚ) ^ j < 65520)
    (h : Narrowed16 ((m : ℚ) * (2 : ℚ) ^ j) n) : n < 0x7C00 ∧ patternVal16 n = (m : ℚ) * (2 : ℚ) ^ j := by
  obtain ⟨k, l, hn, -, hval, hrne, hk⟩ := narrowed16_shape h hv
  have hkj : k ≤ j := by
    rcases hk with rfl | hbase
    · exact hj
    · have hm' : (m : ℚ) < (2 : ℚ) ^ (11 : ℤ) := by exact_mod_cast hm
      have hlt := hbase.trans_lt (mul_lt_mul_of_pos_right hm' (by positivity : (0 : ℚ) < (2 : ℚ) ^ j))
      rw [← zpow_add₀ two_ne_zero, zpow_lt_zpow_iff_right₀ one_lt_two] at hlt
      omega
  obtain ⟨d, hd⟩ := Int.eq_ofNat_of_zero_le (sub_nonneg.mpr hkj)
  rw [mul_assoc, ← zpow_add₀ two_ne_zero, show j + -k = (d : ℤ) by omega] at hrne
  have hl : l = m * 2 ^ d := isRNE_natCast_eq (by exact_mod_cast hrne)
  refine ⟨hn, ?_⟩
  rw [hval, hl, Nat.cast_mul, Nat.cast_pow, Nat.cast_two, mul_assoc, ← zpow_natCast, ← zpow_add₀ two_ne_zero,
    show (d : ℤ) + k = j by omega]

/-! ## No half is nearer -/

/-- No integer is nearer than the RNE, nor, then, is a number below an integer that is not above `q`. -/
theorem isRNE_nearest {q u : ℚ} {m : ℕ} (h : IsRNE q m) (hu : ∃ j : ℤ, u = j ∨ u < j ∧ (j : ℚ) ≤ q) :
    |(m : ℚ) - q| ≤ |u - q| ∧ (|(m : ℚ) - q| = |u - q| → u ≠ m → m % 2 = 0) := by
  obtain ⟨hnear, heven⟩ := h
  have hint (j : ℤ) : (j : ℚ) = m ∨ 1 / 2 ≤ |(j : ℚ) - q| := by
    rcases lt_trichotomy j m with hlt | heq | hgt
    · have hgap : (j : ℚ) + 1 ≤ m := by exact_mod_cast hlt
      exact .inr (by linarith [(abs_le.mp hnear).2, neg_abs_le ((j : ℚ) - q)])
    · exact .inl (by exact_mod_cast heq)
    · have hgap : (m : ℚ) + 1 ≤ j := by exact_mod_cast hgt
      exact .inr (by linarith [(abs_le.mp hnear).1, le_abs_self ((j : ℚ) - q)])
  obtain ⟨j, rfl | ⟨hlt, hle⟩⟩ := hu
  · rcases hint j with heq | hhalf
    · rw [heq]
      exact ⟨le_rfl, fun _ hne => absurd rfl hne⟩
    · exact ⟨hnear.trans hhalf, fun heq _ => heven (le_antisymm hnear (heq ▸ hhalf))⟩
  · have hj : |(m : ℚ) - q| ≤ q - j := by
      rcases hint j with heq | hhalf
      · rw [← heq, abs_sub_comm, abs_of_nonneg (by linarith)]
      · rw [abs_sub_comm, abs_of_nonneg (by linarith)] at hhalf
        exact hnear.trans hhalf
    have hlt' : |(m : ℚ) - q| < |u - q| := by linarith [neg_abs_le (u - q)]
    exact ⟨hlt'.le, fun heq => absurd heq hlt'.ne⟩

/-- In units of `2^k` a half is an integer, or it is below `2^10` units. -/
theorem patternVal16_in_units (n : ℕ) {k : ℤ} {v : ℚ} (hk : k = -24 ∨ (2 : ℚ) ^ (k + 10) ≤ v) :
    ∃ j : ℤ, patternVal16 n * (2 : ℚ) ^ (-k) = j ∨
      patternVal16 n * (2 : ℚ) ^ (-k) < j ∧ (j : ℚ) ≤ v * (2 : ℚ) ^ (-k) := by
  obtain ⟨m, l, hval, hm, hl⟩ := patternVal16_dyadic n
  rw [hval, mul_assoc, ← zpow_add₀ two_ne_zero]
  rcases Int.lt_or_le l k with hlt | hge
  · have hbase : (2 : ℚ) ^ (k + 10) ≤ v := hk.resolve_left (by omega)
    refine ⟨2 ^ 10, .inr ⟨?_, ?_⟩⟩
    · have hm' : (m : ℚ) < (2 : ℚ) ^ (11 : ℤ) := by exact_mod_cast hm
      calc (m : ℚ) * (2 : ℚ) ^ (l + -k) < (2 : ℚ) ^ (11 : ℤ) * (2 : ℚ) ^ (-1 : ℤ) :=
            mul_lt_mul hm' (zpow_le_zpow_right₀ one_le_two (by omega)) (by positivity) (by positivity)
        _ = ((2 ^ 10 : ℤ) : ℚ) := by norm_num
    · have hscaled := mul_le_mul_of_nonneg_right hbase (by positivity : (0 : ℚ) ≤ (2 : ℚ) ^ (-k))
      rw [← zpow_add₀ two_ne_zero, show k + 10 + -k = 10 by ring] at hscaled
      exact_mod_cast hscaled
  · obtain ⟨d, hd⟩ := Int.eq_ofNat_of_zero_le (sub_nonneg.mpr hge)
    refine ⟨m * 2 ^ d, .inl ?_⟩
    rw [show l + -k = (d : ℤ) by omega]
    push_cast
    rfl

theorem abs_sub_mul_zpow (x y : ℚ) (k : ℤ) :
    |x - y| = |x * (2 : ℚ) ^ (-k) - y * (2 : ℚ) ^ (-k)| * (2 : ℚ) ^ k := by
  have hpos : (0 : ℚ) < (2 : ℚ) ^ (-k) := by positivity
  rw [← sub_mul, abs_mul, abs_of_pos hpos, mul_assoc, ← zpow_add₀ two_ne_zero, neg_add_cancel, zpow_zero, mul_one]

/-- Below the overflow bound no half is nearer than the one `NARROW16` gives, and of two equally near ones it gives the
even one. -/
theorem narrowed16_nearest {v : ℚ} {n : ℕ} (h : Narrowed16 v n) (hv : v < 65520) (i : ℕ) :
    |patternVal16 n - v| ≤ |patternVal16 i - v| ∧
      (|patternVal16 n - v| = |patternVal16 i - v| → patternVal16 i ≠ patternVal16 n → n % 2 = 0) := by
  obtain ⟨k, m, -, hparity, hval, hrne, hk⟩ := narrowed16_shape h hv
  have hpos : (0 : ℚ) < (2 : ℚ) ^ k := by positivity
  have hunits : patternVal16 n * (2 : ℚ) ^ (-k) = m := by
    rw [hval, mul_assoc, ← zpow_add₀ two_ne_zero, add_neg_cancel, zpow_zero, mul_one]
  obtain ⟨hnear, heven⟩ := isRNE_nearest hrne (patternVal16_in_units i hk)
  rw [abs_sub_mul_zpow _ v k, abs_sub_mul_zpow (patternVal16 i) v k, hunits, mul_le_mul_iff_left₀ hpos,
    mul_left_inj' hpos.ne', hparity]
  exact ⟨hnear, fun heq hne => heven heq fun h => hne (by rw [hval, ← h, mul_assoc, ← zpow_add₀ two_ne_zero,
    neg_add_cancel, zpow_zero, mul_one])⟩

end Sys2Proof.Proofs.Nearest16
end

section
/-! F2H (spec/43_half.md R144 to R146) and the conversions composed with it and with H2F (R150 to R156). -/

namespace Sys2Proof.Proofs.HalfResults

open Sys2Proof.Machine Sys2Proof.Safety Sys2Proof.Proofs.Float32 Sys2Proof.Proofs.Float16
open Sys2Proof.Proofs.HalfConv Sys2Proof.Proofs.Nearest16

/-! ## The narrowed pattern (R144) -/

section
variable (x : Lane)

theorem signField32_getLsbD : (x.extractLsb' 31 1).getLsbD 0 = sign32 x := by
  simp [sign32]

theorem signField32_setWidth : (x.extractLsb' 31 1).setWidth 16 = (x >>> 31).setWidth 16 := by
  ext i hi
  grind

theorem masked_eq_infinity32_iff : x &&& 0x7FFFFFFF = 0x7F800000 ↔ exp32 x = 255 ∧ frac32 x = 0 := by
  have hexp : exp32 x = x.toNat / 2 ^ 23 % 2 ^ 8 := by
    simp [exp32, BitVec.extractLsb'_toNat, Nat.shiftRight_eq_div_pow]
  have hfrac := frac32_eq_mod x
  have hmask : (x &&& 0x7FFFFFFF).toNat = x.toNat % 2 ^ 31 := Nat.and_two_pow_sub_one_eq_mod x.toNat 31
  have hinf : (0x7F800000 : Lane).toNat = 255 * 2 ^ 23 := rfl
  rw [← BitVec.toNat_inj, hmask, hinf]
  omega

/-- The fields of a half as the disjoint bits R144 and R146 write. -/
theorem append16_eq_or (s : BitVec 1) (e : BitVec 5) (f : BitVec 10) :
    s ++ e ++ f = s.setWidth 16 <<< 15 ||| (e.setWidth 16 <<< 10 ||| f.setWidth 16) := by
  ext i hi
  grind

/-- The fraction of a narrowed NaN: the top payload bits, bit 9 forced (R146). -/
def quietFrac16 : BitVec 10 := 1#1 ++ x.extractLsb' 13 9

theorem low10_eq_mask (h : Half) : (h.extractLsb' 0 10).setWidth 16 = h &&& 0x3FF := by
  refine BitVec.eq_of_toNat_eq ?_
  have hmask : (h &&& 0x3FF).toNat = h.toNat % 2 ^ 10 := Nat.and_two_pow_sub_one_eq_mod h.toNat 10
  have := Nat.mod_lt h.toNat (show 0 < 2 ^ 10 by norm_num)
  rw [BitVec.toNat_setWidth, hmask, BitVec.extractLsb'_toNat, Nat.shiftRight_zero, Nat.mod_eq_of_lt (by omega)]

theorem quietFrac16_setWidth :
    (quietFrac16 x).setWidth 16 = BitVec.twoPow 16 9 ||| ((x >>> 13).setWidth 16 &&& 0x3FF) := by
  rw [← low10_eq_mask, quietFrac16]
  ext i hi
  grind

theorem low15_toNat (h : Half) : (h &&& 0x7FFF).toNat = h.toNat % 2 ^ 15 := Nat.and_two_pow_sub_one_eq_mod h.toNat 15

end

/-! ## The three cases of the narrowing (R145, R146) -/

section
variable {x : Lane}

theorem narrow_eq_of_isNaN32 (hn : isNaN32 x = true) :
    narrow x = ((x >>> 31).setWidth 16 <<< 15) ||| 0x7E00 ||| ((x >>> 13).setWidth 16 &&& 0x3FF) := by
  have hfields : narrow x = x.extractLsb' 31 1 ++ 0x1F#5 ++ quietFrac16 x := by
    rw [narrow_of_isNaN32 hn, quietFrac16]
    ext i hi
    grind
  rw [hfields, append16_eq_or, signField32_setWidth, quietFrac16_setWidth, BitVec.or_assoc,
    ← BitVec.or_assoc (BitVec.setWidth 16 0x1F#5 <<< 10)]
  rfl

theorem narrow_eq_of_infinity (hinf : x &&& 0x7FFFFFFF = 0x7F800000) :
    narrow x = ((x >>> 31).setWidth 16 <<< 15) ||| 0x7C00 := by
  obtain ⟨hexp, hfrac⟩ := (masked_eq_infinity32_iff x).mp hinf
  rw [narrow_of_infinity hexp hfrac, append16_eq_or, signField32_setWidth]
  rfl

theorem abs_val32 (hf : finite32 x) : |val32 x| = scaledVal (mag32 x) := by
  have hnonneg := Laws.scaledVal_nonneg (mag32 x)
  cases hs : sign32 x
  · rw [val32_of_nonneg hf hs, abs_of_nonneg hnonneg]
  · rw [val32_of_neg hf hs, abs_neg, abs_of_nonneg hnonneg]

/-- A narrowed magnitude leaves the sign bit clear. -/
theorem narrow16_toNat_lt (q : Scaled) : (narrow16 q).toNat < 2 ^ 15 := by
  have hnarrow := narrowed16_narrow16 q
  rcases lt_or_ge (scaledVal q) 65520 with hlt | hge
  · obtain ⟨-, -, hn, -⟩ := narrowed16_shape hnarrow hlt
    omega
  · have := hnarrow.1 hge
    omega

/-- The narrowed finite pattern: the sign copied, the magnitude narrowed (R145). -/
theorem narrow_fields_of_finite32 (hf : finite32 x) :
    sign16 (narrow x) = sign32 x ∧ Narrowed16 |val32 x| ((narrow x).toNat % 2 ^ 15) := by
  have hlow : (narrow x).toNat % 2 ^ 15 = (narrow16 (mag32 x)).toNat := by
    have hlt := narrow16_toNat_lt (mag32 x)
    have hfield : (narrow x).extractLsb' 0 15 = (narrow16 (mag32 x)).extractLsb' 0 15 := by
      rw [narrow_of_finite32 hf]
      ext i hi
      grind
    have htoNat := congrArg BitVec.toNat hfield
    rw [BitVec.extractLsb'_toNat, BitVec.extractLsb'_toNat, Nat.shiftRight_zero, Nat.shiftRight_zero] at htoNat
    omega
  refine ⟨?_, ?_⟩
  · rw [narrow_of_finite32 hf, ← signField32_getLsbD]
    grind [sign16]
  · rw [hlow, abs_val32 hf]
    exact narrowed16_narrow16 _

end

/-- F2H of a pattern is what R144 to R146 say. -/
theorem narrowed_narrow (x : Lane) : Narrowed x (narrow x) := by
  refine ⟨narrow_eq_of_isNaN32, narrow_eq_of_infinity, fun hf => ?_⟩
  rw [low15_toNat]
  exact narrow_fields_of_finite32 hf

/-- Settles O47: each slot holds its narrowed float. -/
theorem f2hResult : Obligations.F2hResult := fun r g b a s =>
  ⟨narrow r, narrow g, narrow b, narrow a, Laws.exec_eq_present _ s, narrowed_narrow r, narrowed_narrow g,
    narrowed_narrow b, narrowed_narrow a⟩

/-! ## No half is nearer (R145) -/

section
variable {x : Lane} (hf : finite32 x) (hx : |val32 x| < 65520)
include hf hx

theorem finite16_narrow : finite16 (narrow x) := by
  obtain ⟨-, hnarrow⟩ := narrow_fields_of_finite32 hf
  obtain ⟨-, -, hn, -⟩ := narrowed16_shape hnarrow hx
  exact (finite16_iff _).mpr hn

/-- The narrowed pattern has its operand's sign, so it is off by as much as their magnitudes are. -/
theorem abs_val16_narrow_sub :
    |val16 (narrow x) - val32 x| = |patternVal16 ((narrow x).toNat % 2 ^ 15) - (|val32 x|)| := by
  obtain ⟨hsign, -⟩ := narrow_fields_of_finite32 hf
  rw [val16_of_sign (finite16_narrow hf hx), hsign, abs_val32 hf]
  cases hs : sign32 x
  · rw [val32_of_nonneg hf hs]
    rfl
  · rw [val32_of_neg hf hs, if_pos rfl, neg_sub_neg, abs_sub_comm]

/-- Zero narrows to zero. -/
theorem val16_narrow_of_zero (hzero : val32 x = 0) : val16 (narrow x) = 0 := by
  obtain ⟨-, hnarrow⟩ := narrow_fields_of_finite32 hf
  obtain ⟨hnear, -⟩ := narrowed16_nearest hnarrow hx 0
  have habs := abs_val16_narrow_sub hf hx
  rw [← habs, hzero, abs_zero] at hnear
  have : |val16 (narrow x)| ≤ 0 := by simpa [patternVal16] using hnear
  exact abs_nonpos_iff.mp this

/-- A half of the opposite value is farther off, unless both are zero. -/
theorem abs_val16_narrow_sub_ne {v : ℚ} (hv : v = -val16 (narrow x)) (hne : v ≠ val16 (narrow x)) :
    |val16 (narrow x) - val32 x| ≠ |v - val32 x| := by
  intro heq
  have hprod : val16 (narrow x) * val32 x = 0 := by
    have hsq := (sq_eq_sq_iff_abs_eq_abs _ _).mpr heq
    rw [hv] at hsq
    linarith
  have hzero : val16 (narrow x) = 0 := (mul_eq_zero.mp hprod).elim id (val16_narrow_of_zero hf hx)
  exact hne (by rw [hv, hzero, neg_zero])

end

/-- Settles O48: halves compare by their magnitudes, as the narrowed one has the operand's sign. -/
theorem f2hIsNearest : Obligations.F2hIsNearest := by
  intro x hf hx
  refine ⟨finite16_narrow hf hx, fun h hh => ?_⟩
  obtain ⟨-, hnarrow⟩ := narrow_fields_of_finite32 hf
  obtain ⟨hnear, heven⟩ := narrowed16_nearest hnarrow hx (h.toNat % 2 ^ 15)
  have hmag : |patternVal16 (h.toNat % 2 ^ 15) - (|val32 x|)| ≤ |val16 h - val32 x| := by
    rw [← abs_val16 hh]
    exact abs_abs_sub_abs_le _ _
  rw [← abs_val16_narrow_sub hf hx] at hnear heven
  refine ⟨hnear.trans hmag, fun heq hne => ?_⟩
  have htie := le_antisymm hnear (heq ▸ hmag)
  rcases eq_or_ne (patternVal16 (h.toNat % 2 ^ 15)) (patternVal16 ((narrow x).toNat % 2 ^ 15)) with hsame | hother
  · rw [← abs_val16 hh, ← abs_val16 (finite16_narrow hf hx), abs_eq_abs] at hsame
    exact absurd heq (abs_val16_narrow_sub_ne hf hx (hsame.resolve_left hne) hne)
  · have := heven htie hother
    omega

end Sys2Proof.Proofs.HalfResults
end

section
/-! The conversions composed of a widening or narrowing and a texel's pack or unpack (spec/43_half.md R150 to R156). -/

namespace Sys2Proof.Proofs.HalfTexel

open Sys2Proof.Machine Sys2Proof.Safety Sys2Proof.Proofs.Float16 Sys2Proof.Proofs.HalfConv
open Sys2Proof.Proofs.Nearest16 Sys2Proof.Proofs.HalfResults Sys2Proof.Proofs.PackIdentities

/-! ## Halves to texels (R150 to R153) -/

/-- Settles O50: the word is the pack of the widened halves, in which alpha has no part. -/
theorem h16ToRgb9e5Result : Obligations.H16ToRgb9e5Result := fun r g b a s =>
  ⟨widen r, widen g, widen b, h16ToRgb9e5 r g b a, Repack.exec_of_resultOf_w9 rfl s, Repack.exec_of_resultOf_w9 rfl s,
    widened_widen r, widened_widen g, widened_widen b, fun _ => rfl⟩

/-- A finite half is at most `2047 * 2^5`. -/
theorem patternVal16_lt {n : ℕ} (hn : n < 0x7C00) : patternVal16 n < 65536 := by
  unfold patternVal16
  split
  case isTrue hsub =>
    have hn' : (n : ℚ) < 1024 := by exact_mod_cast hsub
    norm_num
    linarith
  case isFalse hnorm =>
    have hsig : ((2 ^ 10 + n % 2 ^ 10 : ℕ) : ℚ) ≤ 2047 := by exact_mod_cast (by omega : 2 ^ 10 + n % 2 ^ 10 ≤ 2047)
    calc ((2 ^ 10 + n % 2 ^ 10 : ℕ) : ℚ) * (2 : ℚ) ^ (((n / 2 ^ 10 : ℕ) : ℤ) - 25)
        ≤ 2047 * (2 : ℚ) ^ (5 : ℤ) :=
          mul_le_mul hsig (zpow_le_zpow_right₀ one_le_two (by omega)) (by positivity) (by norm_num)
      _ < 65536 := by norm_num

/-- A widened finite half counts as less than `2^16` in the RGBE8 maximum. -/
theorem packKeyE8_widen_lt {h : Half} (hf : finite16 h) : packKeyE8 (widen h) < 143 * 2 ^ 23 := by
  obtain ⟨hfin, -, -⟩ := widen_fields_of_finite16 hf
  cases hs : sign32 (widen h)
  case true => simp [packKeyE8, hs]
  case false =>
    have hpattern : IsPattern32 (val16 h) (widen h) := ⟨hfin, hs, val32_widen hf⟩
    rw [RepackE8.packKeyE8_of_isPattern32 hpattern]
    refine RepackE8.toNat_lt_of_lt_two_pow hpattern ((le_abs_self _).trans_lt ?_)
    rw [abs_val16 hf]
    exact patternVal16_lt ((finite16_iff h).mp hf)

/-- Finite halves are below `2^16`, so their exponent byte is at most 145 (R153). -/
theorem h16ToRgbe8_e_bounds {r g b : Half} (hr : finite16 r) (hg : finite16 g) (hb : finite16 b) (a : Half) :
    3 ≤ (h16ToRgbe8 r g b a).e.toNat ∧ (h16ToRgbe8 r g b a).e.toNat ≤ 145 := by
  have hEr : packErE8 (widen r) (widen g) (widen b) ≤ 143 := by
    refine RepackE8.packErE8_le_of_keys_lt ?_
    rw [List.forall_mem_cons, List.forall_mem_cons, List.forall_mem_singleton]
    exact ⟨packKeyE8_widen_lt hr, packKeyE8_widen_lt hg, packKeyE8_widen_lt hb⟩
  have hone := PackRgbe8.one_le_packErE8 (widen r) (widen g) (widen b)
  rw [h16ToRgbe8, PackRgbe8.packRgbe8_e_toNat, PackRgbe8.packExpE8_of_le _ _ _ (by omega)]
  omega

/-- Settles O51: the texel is the pack of the widened halves, in which alpha has no part. -/
theorem h16ToRgbe8Result : Obligations.H16ToRgbe8Result := fun r g b a s =>
  ⟨widen r, widen g, widen b, h16ToRgbe8 r g b a, RepackE8.exec_of_resultOf_e8 rfl s,
    RepackE8.exec_of_resultOf_e8 rfl s, widened_widen r, widened_widen g, widened_widen b,
    fun hr hg hb => h16ToRgbe8_e_bounds hr hg hb a, fun _ => rfl⟩

/-! ## RGB9E5 to halves (R154 to R156) -/

/-- A non-negative value below 65520 with 11 significant bits, none below `2^-24`, is exact in binary16. -/
theorem isPattern16_narrow {m : ℕ} {j : ℤ} {x : Lane} (hm : m < 2 ^ 11) (hj : -24 ≤ j)
    (hv : (m : ℚ) * (2 : ℚ) ^ j < 65520) (hx : IsPattern32 ((m : ℚ) * (2 : ℚ) ^ j) x) :
    IsPattern16 ((m : ℚ) * (2 : ℚ) ^ j) (narrow x) := by
  obtain ⟨hf, hs, hval⟩ := hx
  obtain ⟨hsign, hnarrow⟩ := narrow_fields_of_finite32 hf
  have hnonneg : 0 ≤ (m : ℚ) * (2 : ℚ) ^ j := by positivity
  rw [hval, abs_of_nonneg hnonneg] at hnarrow
  obtain ⟨hn, hpattern⟩ := narrowed16_exact hm hj hv hnarrow
  have hfin := (finite16_iff _).mpr hn
  refine ⟨hfin, hsign.trans hs, ?_⟩
  rw [val16_of_sign hfin, hsign, hs, ← hpattern]
  rfl

/-- A 9-bit mantissa at any stored exponent is exact in binary16 (R155). -/
theorem isPattern16_narrow_channel9 (e : BitVec 5) (m : BitVec 9) :
    IsPattern16 (value9 e m) (narrow (channel9 e m)) :=
  isPattern16_narrow (by omega) (by omega) ((value9_le e m).trans_lt (by norm_num)) (isPattern32_channel9 e m)

theorem narrow_alphaOne : narrow alphaOne = 0x3C00#16 := by decide

theorem rgb9e5ToH16Result_eq (w : Rgb9e5) :
    Machine.rgb9e5ToH16Result w = legalResult (0#64 ++ 0x3C00#16 ++ narrow (channel9 w.e w.b) ++
      narrow (channel9 w.e w.g) ++ narrow (channel9 w.e w.r)) := by
  rw [← narrow_alphaOne]
  rfl

/-- Settles O52: every channel is exact in binary16. -/
theorem rgb9e5ToH16Result : Obligations.Rgb9e5ToH16Result := by
  intro w s
  refine ⟨_, _, _, ?_, isPattern16_narrow_channel9 w.e w.r, isPattern16_narrow_channel9 w.e w.g,
    isPattern16_narrow_channel9 w.e w.b⟩
  rw [Laws.exec_eq_present, resultOf, rgb9e5ToH16Result_eq, legalResult]

/-- A channel comes back from binary16, as each has one pattern. -/
theorem widen_narrow_channel9 (e : BitVec 5) (m : BitVec 9) : widen (narrow (channel9 e m)) = channel9 e m := by
  obtain ⟨hf, hs, hval⟩ := isPattern16_narrow_channel9 e m
  obtain ⟨hfin, hsign, -⟩ := widen_fields_of_finite16 hf
  exact Values.isPattern32_unique ⟨hfin, hsign.trans hs, (val32_widen hf).trans hval⟩ (isPattern32_channel9 e m)

theorem widen_one : widen 0x3C00#16 = 0x3F800000#32 := by decide

/-- H2F of four half slots, whatever is above. -/
theorem execFn_h2f_of_four (x : BitVec 64) (r g b a : Half) :
    execFn 0x6 (x ++ a ++ b ++ g ++ r) = legalResult (widen a ++ widen b ++ widen g ++ widen r) := by
  obtain ⟨hr, hg, hb, ha⟩ := Laws.half_of_four x r g b a
  have hdecode : execFn 0x6 (x ++ a ++ b ++ g ++ r) = Machine.h2fResult (half (x ++ a ++ b ++ g ++ r) 0)
      (half (x ++ a ++ b ++ g ++ r) 1) (half (x ++ a ++ b ++ g ++ r) 2) (half (x ++ a ++ b ++ g ++ r) 3) := rfl
  rw [hdecode, hr, hg, hb, ha]
  rfl

/-- Narrowing an unpacked word and widening it again loses nothing (R156). -/
theorem execFn_h2f_rgb9e5ToH16 (w : Rgb9e5) :
    execFn 0x6 (Machine.rgb9e5ToH16Result w).dst = legalResult (0x3F800000#32 ++ channel9 w.e w.b ++
      channel9 w.e w.g ++ channel9 w.e w.r) := by
  rw [rgb9e5ToH16Result_eq, legalResult, execFn_h2f_of_four, widen_narrow_channel9, widen_narrow_channel9,
    widen_narrow_channel9, widen_one]

theorem unpackRgb9e5Result_eq (w : Rgb9e5) :
    unpackRgb9e5Result w = legalResult (0#32 ++ channel9 w.e w.b ++ channel9 w.e w.g ++ channel9 w.e w.r) := rfl

/-- What is in lane 3 does not show in the others. -/
theorem lane_of_lane3 (r g b a a' : Lane) (k : Fin 3) : lane (a ++ b ++ g ++ r) k = lane (a' ++ b ++ g ++ r) k := by
  obtain ⟨hr, hg, hb, -⟩ := Laws.lane_of_four r g b a
  obtain ⟨hr', hg', hb', -⟩ := Laws.lane_of_four r g b a'
  match k with
  | 0 => exact hr.trans hr'.symm
  | 1 => exact hg.trans hg'.symm
  | 2 => exact hb.trans hb'.symm

/-- Settles O53: each channel narrows exactly and widens back. -/
theorem rgb9e5ToH16IsLossless : Obligations.Rgb9e5ToH16IsLossless := by
  intro src k
  have hback := execFn_h2f_rgb9e5ToH16 (rgb9e5OfWord (lane src 0))
  have hunpack : execFn 0x2 src = unpackRgb9e5Result (rgb9e5OfWord (lane src 0)) := rfl
  have hnarrow : execFn 0xA src = Machine.rgb9e5ToH16Result (rgb9e5OfWord (lane src 0)) := rfl
  rw [hnarrow, hback, hunpack, unpackRgb9e5Result_eq]
  obtain ⟨-, -, -, halpha⟩ := Laws.lane_of_four _ _ _ _
  exact ⟨lane_of_lane3 _ _ _ _ _ k, halpha⟩

end Sys2Proof.Proofs.HalfTexel
end

section
/-! Binary32 rounding (spec/40_pack.md R75, R86): the exact sum, a sum in a known binade, and results that are exact. -/

namespace Sys2Proof.Proofs.Round32

open Sys2Proof.Machine Sys2Proof.Safety Sys2Proof.Proofs.Float32 Sys2Proof.Proofs.Rounding

/-! ## The exact operations -/

theorem scaledVal_scaledAdd (p q : Scaled) : scaledVal (scaledAdd p q) = scaledVal p + scaledVal q := by
  have hpow (k : ℤ) (hk : min p.exp q.exp ≤ k) :
      ((2 ^ (k - min p.exp q.exp).toNat : ℕ) : ℚ) * (2 : ℚ) ^ min p.exp q.exp = (2 : ℚ) ^ k := by
    rw [Nat.cast_pow, Nat.cast_two, ← zpow_natCast, ← zpow_add₀ two_ne_zero, Int.toNat_of_nonneg (by omega),
      sub_add_cancel]
  simp only [scaledVal, scaledAdd]
  rw [Nat.cast_add, Nat.cast_mul, Nat.cast_mul, add_mul, mul_assoc, mul_assoc, hpow _ (min_le_left _ _),
    hpow _ (min_le_right _ _)]

theorem scaledVal_scaledShift (q : Scaled) (k : ℤ) : scaledVal (scaledShift q k) = scaledVal q * (2 : ℚ) ^ k := by
  rw [scaledVal, scaledVal, scaledShift, mul_assoc, ← zpow_add₀ two_ne_zero]

theorem sig_ne_zero_of_pos {q : Scaled} (h : 0 < scaledVal q) : q.sig ≠ 0 := fun hzero => by
  simp [scaledVal, hzero] at h

/-! ## The rounding -/

/-- A number of the binade of exponent field `e` rounds to that field and the rounded significand. -/
theorem f32round_of_binade {q : Scaled} {e : ℕ} (he : 1 ≤ e) (hlo : (2 : ℚ) ^ ((e : ℤ) - 127) ≤ scaledVal q)
    (hhi : scaledVal q < (2 : ℚ) ^ ((e : ℤ) - 126)) :
    f32round q = BitVec.ofNat 32 (min 0x7F800000 (e * 2 ^ 23 + (rne q (150 - (e : ℤ)) - 2 ^ 23))) := by
  have hsig : q.sig ≠ 0 := sig_ne_zero_of_pos (lt_of_lt_of_le (by positivity) hlo)
  obtain ⟨hbase, hnext⟩ := Float16.scaledVal_binade hsig
  have hlog : scaledLog2 q = e - 127 := Float16.binade_unique hbase hnext hlo
    (by rwa [show (e : ℤ) - 127 + 1 = e - 126 by ring])
  rw [f32round, if_neg hsig, if_pos (by omega), hlog, show (e : ℤ) - 127 + 127 = e by ring, Int.toNat_natCast,
    show (23 : ℤ) - (e - 127) = 150 - e by ring]

/-- A power of two plus less than a binade's width rounds to the power's exponent field and the rounded rest. -/
theorem f32round_power_add {q : Scaled} {e m : ℕ} {c : ℚ} (he : 1 ≤ e) (he' : e ≤ 254)
    (hval : scaledVal q = (2 : ℚ) ^ ((e : ℤ) - 127) + c) (hc : 0 ≤ c) (hm : IsRNE (c * (2 : ℚ) ^ (150 - (e : ℤ))) m)
    (hlt : m < 2 ^ 22) : f32round q = BitVec.ofNat 32 (e * 2 ^ 23 + m) := by
  have hpower : (2 : ℚ) ^ ((e : ℤ) - 127) * (2 : ℚ) ^ (150 - (e : ℤ)) = 2 ^ 23 := by
    rw [← zpow_add₀ two_ne_zero, show (e : ℤ) - 127 + (150 - e) = 23 by ring]
    norm_num
  have hrest : c < (2 : ℚ) ^ ((e : ℤ) - 127) := by
    have hm' : (m : ℚ) + 1 ≤ 2 ^ 22 := by exact_mod_cast hlt
    refine lt_of_mul_lt_mul_right (a := (2 : ℚ) ^ (150 - (e : ℤ))) ?_ (by positivity)
    linarith [(abs_le.mp hm.1).1]
  have hrne : rne q (150 - (e : ℤ)) = 2 ^ 23 + m := by
    refine Values.isRNE_unique (isRNE_rne q _) ?_
    rw [hval, add_mul, hpower]
    exact_mod_cast Values.isRNE_add_even hm (a := 2 ^ 23) (by norm_num)
  have hnext : (2 : ℚ) ^ ((e : ℤ) - 126) = (2 : ℚ) ^ ((e : ℤ) - 127) + (2 : ℚ) ^ ((e : ℤ) - 127) := by
    rw [show (e : ℤ) - 126 = e - 127 + 1 by ring, zpow_add_one₀ two_ne_zero, mul_two]
  rw [f32round_of_binade he (by rw [hval]; linarith) (by rw [hval, hnext]; linarith), hrne, Nat.add_sub_cancel_left,
    min_eq_right (by omega)]

/-- Where `q * 2^k` is an integer its rounding is its floor. -/
theorem rne_of_nonneg {q : Scaled} {k : ℤ} (h : 0 ≤ q.exp + k) : rne q k = scaledFloor q k := by
  refine Values.isRNE_unique (isRNE_rne q k) ?_
  rw [← scaledFloor_eq_val h]
  exact ⟨by norm_num, fun hhalf => absurd hhalf (by norm_num)⟩

/-- With at most 24 significant bits, none below `2^-149` and none above `2^127`, nothing is rounded (R12). -/
theorem f32round_eq_f32bits {q : Scaled} (hsig : q.sig < 2 ^ 24) (hexp : q.sig ≠ 0 → -149 ≤ q.exp)
    (hlog : q.sig ≠ 0 → scaledLog2 q ≤ 127) : f32round q = f32bits q := by
  rcases eq_or_ne q.sig 0 with hzero | hne
  · rw [f32round, f32bits, if_pos hzero, if_pos hzero]
  have hexp := hexp hne
  have hlog := hlog hne
  rw [f32round, f32bits, if_neg hne, if_neg hne]
  rcases Int.lt_or_le (scaledLog2 q) (-126) with hsub | hnorm
  · rw [if_neg (by omega), if_neg (by omega), rne_of_nonneg (by omega)]
  · obtain ⟨hlog23, -, hlt⟩ := shifted_significand_bounds hne hsig
    have hlogEq : scaledLog2 q = q.sig.log2 + q.exp := rfl
    have hshift : q.exp + (23 - scaledLog2 q) = ((23 - q.sig.log2 : ℕ) : ℤ) := by omega
    have hfloor := scaledFloor_of_nonneg (q := q) (k := 23 - scaledLog2 q) (by omega)
    rw [hshift, Int.toNat_natCast] at hfloor
    rw [if_pos hnorm, if_pos hnorm, rne_of_nonneg (by omega), min_eq_right (by omega)]

theorem isPattern32_f32round {q : Scaled} (hsig : q.sig < 2 ^ 24) (hexp : q.sig ≠ 0 → -149 ≤ q.exp)
    (hlog : q.sig ≠ 0 → scaledLog2 q ≤ 127) : IsPattern32 (scaledVal q) (f32round q) := by
  rw [f32round_eq_f32bits hsig hexp hlog]
  rcases eq_or_ne q.sig 0 with hzero | hne
  · have hval : scaledVal q = scaledVal ⟨0, 0⟩ := by simp [scaledVal, hzero]
    rw [hval, f32bits, if_pos hzero]
    exact isPattern32_f32bits (q := ⟨0, 0⟩) (by norm_num) (by norm_num) (fun h => absurd rfl h)
  · exact isPattern32_f32bits hsig (hexp hne) hlog

/-- A number below the normal range rounds to a pattern of at most `2^-126`. -/
theorem f32round_subnormal {q : Scaled} (hne : q.sig ≠ 0) (hlog : scaledLog2 q < -126) :
    ∃ u, IsPattern32 u (f32round q) ∧ u ≤ (2 : ℚ) ^ (-126 : ℤ) ∧ scaledVal q ≤ (2 : ℚ) ^ (-126 : ℤ) := by
  obtain ⟨-, hnext⟩ := Float16.scaledVal_binade hne
  have hval : scaledVal q ≤ (2 : ℚ) ^ (-126 : ℤ) :=
    hnext.le.trans (zpow_le_zpow_right₀ one_le_two (by omega))
  have hle : rne q 149 ≤ 0x00800000 := by
    refine isRNE_le (isRNE_rne q 149) ?_
    have := mul_le_mul_of_nonneg_right hval (by positivity : (0 : ℚ) ≤ (2 : ℚ) ^ (149 : ℤ))
    rw [← zpow_add₀ two_ne_zero] at this
    norm_num at this ⊢
    linarith
  have htoNat : (f32round q).toNat = rne q 149 := by
    rw [f32round, if_neg hne, if_neg (by omega), BitVec.toNat_ofNat, Nat.mod_eq_of_lt (by omega)]
  refine ⟨_, Values.isPattern32_of_toNat_lt (by omega), ?_, hval⟩
  rw [← PackRgbe8.patternVal_floorE8, htoNat]
  exact patternVal_strictMono.monotone hle

theorem scaledLog2_neg {q : Scaled} (hne : q.sig ≠ 0) (hval : scaledVal q < 1) : scaledLog2 q < 0 := by
  obtain ⟨hbase, -⟩ := Float16.scaledVal_binade hne
  have hlt : (2 : ℚ) ^ scaledLog2 q < (2 : ℚ) ^ (0 : ℤ) := by simpa using hbase.trans_lt hval
  exact (zpow_lt_zpow_iff_right₀ one_lt_two).mp hlt

/-- Rounding a number below 1 with at most 24 significant bits changes it only below the normal range (R86). -/
theorem f32round_below_one {q : Scaled} (hsig : q.sig < 2 ^ 24) (hval : scaledVal q < 1) :
    ∃ u, IsPattern32 u (f32round q) ∧
      (u = scaledVal q ∨ u ≤ (2 : ℚ) ^ (-126 : ℤ) ∧ scaledVal q ≤ (2 : ℚ) ^ (-126 : ℤ)) := by
  by_cases hsub : q.sig ≠ 0 ∧ scaledLog2 q < -126
  · obtain ⟨hne, hlog⟩ := hsub
    obtain ⟨u, hu, hle⟩ := f32round_subnormal hne hlog
    exact ⟨u, hu, .inr hle⟩
  · refine ⟨_, isPattern32_f32round hsig (fun hne => ?_) (fun hne => ?_), .inl rfl⟩
    · obtain ⟨hlog23, -, -⟩ := shifted_significand_bounds hne hsig
      have hlog : ¬ scaledLog2 q < -126 := fun h => hsub ⟨hne, h⟩
      simp only [scaledLog2] at hlog
      omega
    · exact (scaledLog2_neg hne hval).le.trans (by norm_num)

end Sys2Proof.Proofs.Round32
end

section
/-! The source's bit mechanisms compute what the exact rules do (spec/40_pack.md R75, R86). -/

namespace Sys2Proof.Proofs.Mechanism

open Sys2Proof.Machine Sys2Proof.Safety Sys2Proof.Proofs.Float32 Sys2Proof.Proofs.Rounding Sys2Proof.Proofs.Round32

/-! ## Powers of two as patterns -/

/-- The pattern of exponent field `e` and fraction 0. -/
def powerPattern (e : ℕ) : Lane := 0#1 ++ BitVec.ofNat 8 e ++ 0#23

theorem toNat_div_of_fields (n : ℕ) : (BitVec.ofNat 32 n).extractLsb' 23 8 = BitVec.ofNat 8 (n / 2 ^ 23) := by
  refine BitVec.eq_of_toNat_eq ?_
  rw [BitVec.extractLsb'_toNat, BitVec.toNat_ofNat, BitVec.toNat_ofNat, Nat.shiftRight_eq_div_pow]
  omega

/-- Masking with `0x7F800000` keeps the exponent field. -/
theorem and_expMask (x : Lane) : x &&& 0x7F800000 = 0#1 ++ x.extractLsb' 23 8 ++ 0#23 := by
  ext i hi
  have hmask := RoundTrip.getLsbD_and_field (k := 23) (n := 8) (m := 0x7F800000) rfl x i
  grind

theorem ofNat_and_expMask (n : ℕ) : BitVec.ofNat 32 n &&& 0x7F800000 = powerPattern (n / 2 ^ 23) := by
  rw [and_expMask, toNat_div_of_fields, powerPattern]

section
variable {e : ℕ} (he : e < 256)
include he

theorem exp32_powerPattern : exp32 (powerPattern e) = e := by
  rw [powerPattern, HalfConv.exp32_append, BitVec.toNat_ofNat, Nat.mod_eq_of_lt (by omega)]

theorem powerPattern_toNat : (powerPattern e).toNat = e * 2 ^ 23 := by
  rw [powerPattern, Buffers.toNat_append_eq, Buffers.toNat_append_eq, BitVec.toNat_ofNat, BitVec.toNat_ofNat,
    BitVec.toNat_ofNat, Nat.mod_eq_of_lt he]
  omega

theorem scaledVal_powerPattern (hpos : 1 ≤ e) : scaledVal (mag32 (powerPattern e)) = (2 : ℚ) ^ ((e : ℤ) - 127) := by
  have hfrac : frac32 (powerPattern e) = 0 := by rw [powerPattern, HalfConv.frac32_append]; rfl
  rw [mag32, exp32_powerPattern he, hfrac, if_neg (by omega), scaledVal, show (e : ℤ) - 127 = 23 + (e - 150) by ring,
    zpow_add₀ two_ne_zero]
  norm_num

end

/-! ## The mechanism of PACK_RGB9E5 (R75) -/

section
variable (r g b : Lane)

/-- The bias float is `2^(E-1)`. -/
theorem biasBits9_eq : biasBits9 r g b = powerPattern (packExp9 r g b + 126) := by
  have hexp := PackRgb9e5.packExp9_add r g b
  rw [biasBits9, show (0x07804000 : Lane) = BitVec.ofNat 32 0x07804000 from rfl, ← BitVec.ofNat_add,
    ofNat_and_expMask]
  congr 1
  omega

/-- The sum of a clamped channel and the bias has the bias's exponent field and the mantissa in its low bits. -/
theorem biasedSum9_eq {x : Lane} (hx : x ∈ [r, g, b]) :
    biasedSum9 r g b x =
      BitVec.ofNat 32 ((packExp9 r g b + 126) * 2 ^ 23 + packMantissa9 (packExp9 r g b) x) := by
  have hE := PackRgb9e5.packExp9_le r g b
  have hm := PackRgb9e5.packMantissa9_le r g b hx
  have hrne := PackRgb9e5.isRNE_packMantissa9 (packExp9 r g b) x
  obtain ⟨hf, hs⟩ := PackRgb9e5.cl9_finite_nonneg x
  rw [biasedSum9, f32addPos, biasBits9_eq]
  refine f32round_power_add (c := val32 (cl9 x)) (by omega) (by omega) ?_ (PackRgb9e5.val32_cl9_nonneg x) ?_ (by omega)
  · rw [scaledVal_scaledAdd, scaledVal_powerPattern (by omega) (by omega), ← val32_of_nonneg hf hs, add_comm]
  · rwa [show (150 : ℤ) - (packExp9 r g b + 126 : ℕ) = 24 - packExp9 r g b by omega]

/-- The exponent field of the word: the bias's, moved to the top five bits and raised by 2, modulo 32. -/
theorem biasBits9_shifted :
    (((biasBits9 r g b <<< 4) + 0x10000000) >>> 27) <<< 27 = BitVec.ofNat 5 (packExp9 r g b) ++ 0#27 := by
  have hE := PackRgb9e5.packExp9_le r g b
  have hoffset : (0x10000000 : Lane).toNat = 0x10000000 := rfl
  refine BitVec.eq_of_toNat_eq ?_
  rw [biasBits9_eq, Buffers.toNat_append_eq, BitVec.toNat_shiftLeft, BitVec.toNat_ushiftRight, BitVec.toNat_add,
    BitVec.toNat_shiftLeft, powerPattern_toNat (by omega), hoffset, BitVec.toNat_ofNat, BitVec.toNat_ofNat,
    Nat.shiftLeft_eq, Nat.shiftLeft_eq, Nat.shiftRight_eq_div_pow]
  omega

end

/-- A sum's bits: sign and exponent field, 14 zeros and the mantissa. -/
theorem ofNat_eq_append (e : ℕ) {m : ℕ} (hm : m < 2 ^ 9) :
    BitVec.ofNat 32 (e * 2 ^ 23 + m) = BitVec.ofNat 9 e ++ 0#14 ++ BitVec.ofNat 9 m := by
  refine BitVec.eq_of_toNat_eq ?_
  rw [Buffers.toNat_append_eq, Buffers.toNat_append_eq, BitVec.toNat_ofNat, BitVec.toNat_ofNat, BitVec.toNat_ofNat,
    BitVec.toNat_ofNat]
  omega

/-- The shifts of R75 push a sum's upper bits out of the word or are masked: the mantissas stay. -/
theorem assemble_word (h mr mg mb : BitVec 9) (e : BitVec 5) :
    (e ++ 0#27) ||| ((h ++ 0#14 ++ mb) <<< 18) ||| (((h ++ 0#14 ++ mg) <<< 9) &&& 0x3FE00) |||
      ((h ++ 0#14 ++ mr) &&& 0x1FF) = e ++ mb ++ mg ++ mr := by
  ext i hi
  have hgreen := RoundTrip.getLsbD_and_field (w := 32) (k := 9) (n := 9) (m := 0x3FE00) rfl
    ((h ++ 0#14 ++ mg) <<< 9) i
  have hred := RoundTrip.getLsbD_and_field (w := 32) (k := 0) (n := 9) (m := 0x1FF) rfl (h ++ 0#14 ++ mr) i
  grind

/-- Settles O32: each sum holds its channel's mantissa in the low bits, and the shifts place them. -/
theorem rgb9e5MechanismComputesTheWord : Obligations.Rgb9e5MechanismComputesTheWord := by
  intro r g b
  have hE := PackRgb9e5.packExp9_le r g b
  have hsum {x : Lane} (hx : x ∈ [r, g, b]) : biasedSum9 r g b x =
      BitVec.ofNat 9 (packExp9 r g b + 126) ++ 0#14 ++ BitVec.ofNat 9 (packMantissa9 (packExp9 r g b) x) := by
    have hm := PackRgb9e5.packMantissa9_le r g b hx
    rw [biasedSum9_eq r g b hx, ofNat_eq_append _ (by omega)]
  rw [packWordMechanism9, biasBits9_shifted, hsum (x := r) (by simp), hsum (x := g) (by simp), hsum (x := b) (by simp),
    assemble_word]
  rfl

/-! ## The mechanism of PACK_RGBE8 (R86) -/

/-- The bias float is `2^(Er-126)`. -/
theorem biasBitsE8_eq (r g b : Lane) : biasBitsE8 r g b = powerPattern (packErE8 r g b + 1) := by
  have heq := PackRgbe8.packErE8_eq r g b
  rw [biasBitsE8, show (0x00808000 : Lane) = BitVec.ofNat 32 0x00808000 from rfl, ← BitVec.ofNat_add,
    ofNat_and_expMask]
  congr 1
  omega

section
variable {r g b : Lane} (her : packErE8 r g b ≤ 253)
include her

/-- The exponent byte of R86 is that of R83. -/
theorem mechanism_exponent : min 255 ((biasBitsE8 r g b).toNat / 2 ^ 23 + 1) = packExpE8 r g b := by
  rw [biasBitsE8_eq r g b, powerPattern_toNat (by omega), PackRgbe8.packExpE8_of_le r g b her]
  omega

/-- A channel in units of the bias is below 1. -/
theorem scaled_channel_lt_one {x : Lane} (hx : x ∈ [r, g, b]) (hn : isNaN32 x = false) (hs : sign32 x = false) :
    scaledVal (scaledShift (mag32 x) (-((packErE8 r g b : ℤ) - 126))) < 1 := by
  have hlt := PackRgbe8.toNat_lt_of_packErE8_le r g b her hx hn hs
  have hle := PackRgbe8.toNat_le_packMaxE8 r g b hx hn hs
  have heq := PackRgbe8.packErE8_eq r g b
  rw [scaledVal_scaledShift, scaledVal_mag32 hs]
  refine (scaled_patternVal_lt (a := 0x8000) (e := packErE8 r g b) (j := -24) (by norm_num) (by norm_num)
    (PackRgbe8.one_le_packErE8 r g b) (by omega) (by omega)).trans ?_
  norm_num

end

/-- The product by 256 of a pattern below 1 is exact. -/
theorem isPattern32_f32mulPow {u : ℚ} {y : Lane} (hy : IsPattern32 u y) (hu : u < 1) :
    IsPattern32 (u * (2 : ℚ) ^ (8 : ℤ)) (f32mulPow y 8) := by
  obtain ⟨hf, hs, hval⟩ := hy
  obtain ⟨hsig, hlo, -⟩ := Values.mag32_bounds hf
  rw [val32_of_nonneg hf hs] at hval
  rw [← hval, ← scaledVal_scaledShift, f32mulPow]
  refine isPattern32_f32round hsig (fun _ => by simp only [scaledShift]; omega) fun hne => ?_
  have hneg := scaledLog2_neg (q := mag32 y) hne (by rwa [hval])
  simp only [scaledLog2, scaledShift] at hneg ⊢
  omega

/-- A number below `2^-118` rounds to 0. -/
theorem isRHA_eq_zero {u : ℚ} {n : ℕ} (hu : u ≤ (2 : ℚ) ^ (-126 : ℤ)) (hn : IsRHA (u * (2 : ℚ) ^ (8 : ℤ)) n) :
    n = 0 := by
  refine Nat.le_zero.mp (isRHA_le hn ?_)
  norm_num at hu ⊢
  linarith

/-- Dividing by the bias and multiplying by 256 in binary32 does not change the rounded mantissa: a quotient that is
inexact is so small that the mantissa is 0 either way (R86). -/
theorem rha_f32mulPow_f32divPow {x : Lane} {k : ℤ} (hf : finite32 x)
    (hlt : scaledVal (scaledShift (mag32 x) (-k)) < 1) :
    finite32 (f32mulPow (f32divPow x k) 8) ∧ rha (mag32 (f32mulPow (f32divPow x k) 8)) 0 = rha (mag32 x) (8 - k) := by
  obtain ⟨hsig, -, -⟩ := Values.mag32_bounds hf
  obtain ⟨u, hu, hexact⟩ := f32round_below_one (q := scaledShift (mag32 x) (-k)) hsig hlt
  have hu1 : u < 1 := by
    rcases hexact with heq | ⟨hle, -⟩
    · rwa [heq]
    · exact hle.trans_lt (by norm_num)
  obtain ⟨hfin, hsign, hval⟩ := isPattern32_f32mulPow hu hu1
  have hmech := PackRgbe8.isRHA_channel hfin hsign 0
  rw [hval, zpow_zero, mul_one] at hmech
  have hrule := isRHA_rha (mag32 x) (8 - k)
  rw [show (8 : ℤ) - k = -k + 8 by ring, zpow_add₀ two_ne_zero, ← mul_assoc, ← scaledVal_scaledShift] at hrule
  rw [show (8 : ℤ) - k = -k + 8 by ring]
  refine ⟨hfin, ?_⟩
  rcases hexact with heq | ⟨hle, hle'⟩
  · exact Values.isRHA_unique (heq ▸ hmech) hrule
  · exact (isRHA_eq_zero hle hmech).trans (isRHA_eq_zero hle' hrule).symm

/-- Each channel's mantissa by R86 is that of R84. -/
theorem mechanismChannelE8_eq {r g b x : Lane} (her : packErE8 r g b ≤ 253) (hx : x ∈ [r, g, b]) :
    mechanismChannelE8 (biasBitsE8 r g b) x = packMantissaE8 (packExpE8 r g b) x := by
  cases hskip : isNaN32 x || sign32 x
  case true =>
    rw [mechanismChannelE8, if_pos hskip, PackIdentities.packMantissaE8_of_nonpositive hskip,
      PackIdentities.packMantissaE8_zero]
  case false =>
    obtain ⟨hn, hs⟩ := Bool.or_eq_false_iff.mp hskip
    have hf := ((finite_nonneg_iff x).mpr (PackRgbe8.toNat_lt_of_packErE8_le r g b her hx hn hs)).1
    have hexp : (exp32 (biasBitsE8 r g b) : ℤ) - 127 = packErE8 r g b - 126 := by
      rw [biasBitsE8_eq r g b, exp32_powerPattern (by omega)]
      omega
    obtain ⟨hfin, hrha⟩ := rha_f32mulPow_f32divPow hf (scaled_channel_lt_one her hx hn hs)
    have hinf : f32mulPow (f32divPow x ((packErE8 r g b : ℤ) - 126)) 8 ≠ 0x7F800000 := by
      intro heq
      rw [heq] at hfin
      exact hfin rfl
    rw [mechanismChannelE8, if_neg (by simp [hskip]), hexp, if_neg hinf, hrha,
      PackRgbe8.packMantissaE8_of_finite _ hf hs, PackRgbe8.packExpE8_of_le r g b her,
      show (8 : ℤ) - (packErE8 r g b - 126) = 136 - (packErE8 r g b + 2 : ℕ) by omega]

/-- Settles O38: field by field. -/
theorem rgbe8MechanismComputesTheTexel : Obligations.Rgbe8MechanismComputesTheTexel := by
  intro r g b her
  rw [packRgbe8Mechanism, mechanism_exponent her, mechanismChannelE8_eq her (x := r) (by simp),
    mechanismChannelE8_eq her (x := g) (by simp), mechanismChannelE8_eq her (x := b) (by simp)]
  rfl

end Sys2Proof.Proofs.Mechanism
end
